-- ==== Sys2Proof/Word.lean ====
section
/-! DEFINITION. The word types of the machine and the naming of its operand fields (spec 00_scope R9, R11). -/

namespace Sys2Proof

/-- A register, a memory cell, an immediate NN: 8 unsigned bits (10_state R20). -/
abbrev Byte := BitVec 8

/-- An opcode, the pc, the index register, a stack entry: 16 unsigned bits (10_state R22, R23, R25; 30_encoding R80). -/
abbrev Word := BitVec 16

/-- The 12-bit address operand NNN (00_scope R11). -/
abbrev Addr12 := BitVec 12

/-- A 4-bit field used as a count (N) or presented on a 4-bit port (00_scope R7, R11). -/
abbrev Nibble := BitVec 4

/-- The number of a V register, 0..15 (10_state R20). -/
abbrev RegId := Fin 16

end Sys2Proof
end

