-- ==== Sys2Proof/Syntax.lean ====
section
/-! DEFINITION. The 35 instructions, one constructor per row of spec/opcode_table.json (30_encoding R85), in the table's
order. Fields carry the names and widths of 00_scope R11. -/

namespace Sys2Proof

inductive Instr where
  /-- 0NNN SYS addr, NNN other than 0x0E0 and 0x0EE (R100). -/
  | sys (nnn : Addr12)
  /-- 00E0 CLS (R150). -/
  | cls
  /-- 00EE RET (R101). -/
  | ret
  /-- 1NNN JP addr (R102). -/
  | jp (nnn : Addr12)
  /-- 2NNN CALL addr (R103). -/
  | call (nnn : Addr12)
  /-- 3XNN SE Vx, byte (R110). -/
  | seImm (x : RegId) (nn : Byte)
  /-- 4XNN SNE Vx, byte (R111). -/
  | sneImm (x : RegId) (nn : Byte)
  /-- 5XY0 SE Vx, Vy (R112). -/
  | seReg (x y : RegId)
  /-- 6XNN LD Vx, byte (R122). -/
  | ldImm (x : RegId) (nn : Byte)
  /-- 7XNN ADD Vx, byte (R123). -/
  | addImm (x : RegId) (nn : Byte)
  /-- 8XY0 LD Vx, Vy (R124). -/
  | ldReg (x y : RegId)
  /-- 8XY1 OR Vx, Vy (R125). -/
  | orReg (x y : RegId)
  /-- 8XY2 AND Vx, Vy (R126). -/
  | andReg (x y : RegId)
  /-- 8XY3 XOR Vx, Vy (R127). -/
  | xorReg (x y : RegId)
  /-- 8XY4 ADD Vx, Vy (R128). -/
  | addReg (x y : RegId)
  /-- 8XY5 SUB Vx, Vy (R129). -/
  | subReg (x y : RegId)
  /-- 8XY6 SHR Vx; Y is decoded and unused (R130). -/
  | shr (x y : RegId)
  /-- 8XY7 SUBN Vx, Vy (R131). -/
  | subnReg (x y : RegId)
  /-- 8XYE SHL Vx; Y is decoded and unused (R132). -/
  | shl (x y : RegId)
  /-- 9XY0 SNE Vx, Vy (R113). -/
  | sneReg (x y : RegId)
  /-- ANNN LD I, addr (R140). -/
  | ldI (nnn : Addr12)
  /-- BNNN JP V0, addr (R104). -/
  | jpV0 (nnn : Addr12)
  /-- CXNN RND Vx, byte (R138). -/
  | rnd (x : RegId) (nn : Byte)
  /-- DXYN DRW Vx, Vy, nibble (R151). -/
  | drw (x y : RegId) (n : Nibble)
  /-- EX9E SKP Vx (R160). -/
  | skp (x : RegId)
  /-- EXA1 SKNP Vx (R161). -/
  | sknp (x : RegId)
  /-- FX07 LD Vx, DT (R164). -/
  | ldVxDT (x : RegId)
  /-- FX0A LD Vx, K (R162). -/
  | ldVxK (x : RegId)
  /-- FX15 LD DT, Vx (R165). -/
  | ldDTVx (x : RegId)
  /-- FX18 LD ST, Vx (R166). -/
  | ldSTVx (x : RegId)
  /-- FX1E ADD I, Vx (R141). -/
  | addI (x : RegId)
  /-- FX29 LD F, Vx (R142). -/
  | ldF (x : RegId)
  /-- FX33 LD B, Vx (R143). -/
  | ldB (x : RegId)
  /-- FX55 LD [I], Vx (R144). -/
  | ldMemVx (x : RegId)
  /-- FX65 LD Vx, [I] (R145). -/
  | ldVxMem (x : RegId)
  deriving DecidableEq, Repr

end Sys2Proof
end

