-- ==== Sys2Proof/Decode.lean ====
section
/-! DEFINITION. From bytes to an instruction or a rejection by name (30_encoding R80 to R84), and back: the encoder, and
the match and mask of every row of the opcode map (R85). -/

namespace Sys2Proof

/-- Why a word is no instruction. The families are those of 30_encoding R87. -/
inductive DecodeReject where
  /-- Fewer than the two bytes of an instruction (R80: every instruction is one 16-bit word). -/
  | tooFewBytes
  /-- 0x5XYn with n other than 0. -/
  | undefinedFamily5
  /-- 0x8XYn with n in 8..0xD or 0xF. -/
  | undefinedFamily8
  /-- 0x9XYn with n other than 0. -/
  | undefinedFamily9
  /-- 0xEXnn with nn neither 0x9E nor 0xA1. -/
  | undefinedFamilyE
  /-- 0xFXnn with nn none of the nine low bytes of the family. -/
  | undefinedFamilyF
  deriving DecidableEq, Repr

/-- What the decoder answers. -/
inductive Decoded where
  | ok (i : Instr)
  | reject (r : DecodeReject)
  deriving DecidableEq, Repr

/-! ## Fields of an opcode (00_scope R11) -/

/-- op[15:12], the family. -/
def opTop (op : Word) : Nibble := op.extractLsb' 12 4

/-- X = op[11:8]. -/
def opX (op : Word) : RegId := (op.extractLsb' 8 4).toFin

/-- Y = op[7:4]. -/
def opY (op : Word) : RegId := (op.extractLsb' 4 4).toFin

/-- N = op[3:0]. -/
def opN (op : Word) : Nibble := op.extractLsb' 0 4

/-- NN = op[7:0]. -/
def opNN (op : Word) : Byte := op.extractLsb' 0 8

/-- NNN = op[11:0]. -/
def opNNN (op : Word) : Addr12 := op.extractLsb' 0 12

/-! ## The decoder (R83) -/

/-- Family 0x0 is decoded on the whole word: CLS, RET, else SYS. -/
def decodeFamily0 (op : Word) : Decoded :=
  if op = 0x00E0 then .ok .cls
  else if op = 0x00EE then .ok .ret
  else .ok (.sys (opNNN op))

/-- Family 0x8 is decoded on its low nibble. -/
def decodeFamily8 (op : Word) : Decoded :=
  match (opN op).toNat with
  | 0x0 => .ok (.ldReg (opX op) (opY op))
  | 0x1 => .ok (.orReg (opX op) (opY op))
  | 0x2 => .ok (.andReg (opX op) (opY op))
  | 0x3 => .ok (.xorReg (opX op) (opY op))
  | 0x4 => .ok (.addReg (opX op) (opY op))
  | 0x5 => .ok (.subReg (opX op) (opY op))
  | 0x6 => .ok (.shr (opX op) (opY op))
  | 0x7 => .ok (.subnReg (opX op) (opY op))
  | 0xE => .ok (.shl (opX op) (opY op))
  | _ => .reject .undefinedFamily8

/-- Family 0xE is decoded on its low byte. -/
def decodeFamilyE (op : Word) : Decoded :=
  match (opNN op).toNat with
  | 0x9E => .ok (.skp (opX op))
  | 0xA1 => .ok (.sknp (opX op))
  | _ => .reject .undefinedFamilyE

/-- Family 0xF is decoded on its low byte. -/
def decodeFamilyF (op : Word) : Decoded :=
  match (opNN op).toNat with
  | 0x07 => .ok (.ldVxDT (opX op))
  | 0x0A => .ok (.ldVxK (opX op))
  | 0x15 => .ok (.ldDTVx (opX op))
  | 0x18 => .ok (.ldSTVx (opX op))
  | 0x1E => .ok (.addI (opX op))
  | 0x29 => .ok (.ldF (opX op))
  | 0x33 => .ok (.ldB (opX op))
  | 0x55 => .ok (.ldMemVx (opX op))
  | 0x65 => .ok (.ldVxMem (opX op))
  | _ => .reject .undefinedFamilyF

/-- Decode(op) of R83: on the top nibble, then on the family's secondary selector. The check N = 0 in families 0x5 and
0x9 is the spec's strict reading (D6, C5). -/
def decodeOp (op : Word) : Decoded :=
  match (opTop op).toNat with
  | 0x0 => decodeFamily0 op
  | 0x1 => .ok (.jp (opNNN op))
  | 0x2 => .ok (.call (opNNN op))
  | 0x3 => .ok (.seImm (opX op) (opNN op))
  | 0x4 => .ok (.sneImm (opX op) (opNN op))
  | 0x5 => if opN op = 0 then .ok (.seReg (opX op) (opY op)) else .reject .undefinedFamily5
  | 0x6 => .ok (.ldImm (opX op) (opNN op))
  | 0x7 => .ok (.addImm (opX op) (opNN op))
  | 0x8 => decodeFamily8 op
  | 0x9 => if opN op = 0 then .ok (.sneReg (opX op) (opY op)) else .reject .undefinedFamily9
  | 0xA => .ok (.ldI (opNNN op))
  | 0xB => .ok (.jpV0 (opNNN op))
  | 0xC => .ok (.rnd (opX op) (opNN op))
  | 0xD => .ok (.drw (opX op) (opY op) (opN op))
  | 0xE => decodeFamilyE op
  | _ => decodeFamilyF op

/-- Two bytes as the fetch combines them: big-endian, the lower address holds op[15:8] (30_encoding R80, 20_memory R53). -/
def wordOfBytes (hi lo : Byte) : Word := BitVec.ofNat 16 (hi.toNat * 256 + lo.toNat)

/-- op[15:8], the byte at the lower address. -/
def opHigh (op : Word) : Byte := op.extractLsb' 8 8

/-- op[7:0], the byte at the higher address. -/
def opLow (op : Word) : Byte := op.extractLsb' 0 8

/-- The decoder on memory bytes, total: the instruction at the head of the list (R80). -/
def decodeBytes : List Byte → Decoded
  | hi :: lo :: _ => decodeOp (wordOfBytes hi lo)
  | _ => .reject .tooFewBytes

/-- The host's reading of the decoder on a word numbered as spec/opcode_table.json numbers it: the bits above `nbits` are
0, the word is laid out as memory holds it, and the decoder reads the bytes. -/
def decodeTableWord (nbits w : Nat) : Option Instr :=
  let op : Word := BitVec.ofNat 16 (w % 2 ^ nbits)
  match decodeBytes [opHigh op, opLow op] with
  | .ok i => some i
  | .reject _ => none

/-! ## The encoder -/

/-- Format A: T, NNN (R81). -/
def encA (top : Nibble) (nnn : Addr12) : Word := BitVec.ofNat 16 (top.toNat * 0x1000 + nnn.toNat)

/-- Format XI: T, X, NN (R81). -/
def encXI (top : Nibble) (x : RegId) (nn : Byte) : Word :=
  BitVec.ofNat 16 (top.toNat * 0x1000 + x.val * 0x100 + nn.toNat)

/-- Formats XY and XYN: T, X, Y, low nibble (R81). -/
def encXY (top : Nibble) (x y : RegId) (low : Nibble) : Word :=
  BitVec.ofNat 16 (top.toNat * 0x1000 + x.val * 0x100 + y.val * 0x10 + low.toNat)

/-- The word of an instruction, from the formats and fixed digits of R81 and R85. -/
def encode : Instr → Word
  | .sys nnn => encA 0x0 nnn
  | .cls => 0x00E0
  | .ret => 0x00EE
  | .jp nnn => encA 0x1 nnn
  | .call nnn => encA 0x2 nnn
  | .seImm x nn => encXI 0x3 x nn
  | .sneImm x nn => encXI 0x4 x nn
  | .seReg x y => encXY 0x5 x y 0x0
  | .ldImm x nn => encXI 0x6 x nn
  | .addImm x nn => encXI 0x7 x nn
  | .ldReg x y => encXY 0x8 x y 0x0
  | .orReg x y => encXY 0x8 x y 0x1
  | .andReg x y => encXY 0x8 x y 0x2
  | .xorReg x y => encXY 0x8 x y 0x3
  | .addReg x y => encXY 0x8 x y 0x4
  | .subReg x y => encXY 0x8 x y 0x5
  | .shr x y => encXY 0x8 x y 0x6
  | .subnReg x y => encXY 0x8 x y 0x7
  | .shl x y => encXY 0x8 x y 0xE
  | .sneReg x y => encXY 0x9 x y 0x0
  | .ldI nnn => encA 0xA nnn
  | .jpV0 nnn => encA 0xB nnn
  | .rnd x nn => encXI 0xC x nn
  | .drw x y n => encXY 0xD x y n
  | .skp x => encXI 0xE x 0x9E
  | .sknp x => encXI 0xE x 0xA1
  | .ldVxDT x => encXI 0xF x 0x07
  | .ldVxK x => encXI 0xF x 0x0A
  | .ldDTVx x => encXI 0xF x 0x15
  | .ldSTVx x => encXI 0xF x 0x18
  | .addI x => encXI 0xF x 0x1E
  | .ldF x => encXI 0xF x 0x29
  | .ldB x => encXI 0xF x 0x33
  | .ldMemVx x => encXI 0xF x 0x55
  | .ldVxMem x => encXI 0xF x 0x65

/-! ## The opcode map's match and mask columns (R85) -/

/-- The mask column of R85. -/
def rowMask : Instr → Word
  | .cls | .ret => 0xFFFF
  | .sys _ | .jp _ | .call _ | .ldI _ | .jpV0 _ => 0xF000
  | .seImm _ _ | .sneImm _ _ | .ldImm _ _ | .addImm _ _ | .rnd _ _ | .drw _ _ _ => 0xF000
  | .seReg _ _ | .sneReg _ _ | .ldReg _ _ | .orReg _ _ | .andReg _ _ | .xorReg _ _ => 0xF00F
  | .addReg _ _ | .subReg _ _ | .shr _ _ | .subnReg _ _ | .shl _ _ => 0xF00F
  | .skp _ | .sknp _ | .ldVxDT _ | .ldVxK _ | .ldDTVx _ | .ldSTVx _ => 0xF0FF
  | .addI _ | .ldF _ | .ldB _ | .ldMemVx _ | .ldVxMem _ => 0xF0FF

/-- The match column of R85. -/
def rowMatch : Instr → Word
  | .sys _ => 0x0000
  | .cls => 0x00E0
  | .ret => 0x00EE
  | .jp _ => 0x1000
  | .call _ => 0x2000
  | .seImm _ _ => 0x3000
  | .sneImm _ _ => 0x4000
  | .seReg _ _ => 0x5000
  | .ldImm _ _ => 0x6000
  | .addImm _ _ => 0x7000
  | .ldReg _ _ => 0x8000
  | .orReg _ _ => 0x8001
  | .andReg _ _ => 0x8002
  | .xorReg _ _ => 0x8003
  | .addReg _ _ => 0x8004
  | .subReg _ _ => 0x8005
  | .shr _ _ => 0x8006
  | .subnReg _ _ => 0x8007
  | .shl _ _ => 0x800E
  | .sneReg _ _ => 0x9000
  | .ldI _ => 0xA000
  | .jpV0 _ => 0xB000
  | .rnd _ _ => 0xC000
  | .drw _ _ _ => 0xD000
  | .skp _ => 0xE09E
  | .sknp _ => 0xE0A1
  | .ldVxDT _ => 0xF007
  | .ldVxK _ => 0xF00A
  | .ldDTVx _ => 0xF015
  | .ldSTVx _ => 0xF018
  | .addI _ => 0xF01E
  | .ldF _ => 0xF029
  | .ldB _ => 0xF033
  | .ldMemVx _ => 0xF055
  | .ldVxMem _ => 0xF065

end Sys2Proof
end

