-- ==== Sys2Proof/Config.lean ====
section
/-! DEFINITION. What is fixed for this hardware by the document (spec 00_scope R5), and the one value the spec leaves
free: the random byte. The parameters the spec marks "(parameter)" stand in Machine/Params.lean. -/

namespace Sys2Proof

/-- MEM_SIZE: 4096 bytes, addresses 0x000..0xFFF (00_scope R5, 10_state R29). -/
def Config.memSize : Nat := 4096

/-- PROG_BASE: the first program byte and the reset value of pc (00_scope R5). -/
def Config.progBase : Nat := 0x200

/-- ROM_MAX = MEM_SIZE - PROG_BASE: the longest ROM that fits (00_scope R5, 70_reset R204). -/
def Config.romMax : Nat := 3584

/-- FONT_LEN: 80 bytes of font table (00_scope R5). -/
def Config.fontLen : Nat := 80

/-- STACK_DEPTH: 16 return addresses (00_scope R5). -/
def Config.stackDepth : Nat := 16

/-- FB_W: the framebuffer's width in pixels (00_scope R5). -/
def Config.fbWidth : Nat := 64

/-- FB_H: the framebuffer's height in pixels (00_scope R5). -/
def Config.fbHeight : Nat := 32

/-- FREE VALUE. `rnd_in` at the n-th executed RND: "any value 0..255", a fresh draw with no law (42_alu R138, D25, U7).
It has no body, so nothing can be proved about which byte it is; log 3. -/
opaque Config.rndIn : Nat → Byte

end Sys2Proof
end

