-- ==== Sys2Proof/Machine/Params.lean ====
section
/-! DEFINITION. The three values that spec 00_scope R5 marks "(parameter)", at the defaults it lists: FONT_BASE, FONT and
SUB_EQ_FLAG. They stand here, not in Config.lean, so that a repair may mend them. -/

namespace Sys2Proof.Machine

/-- FONT_BASE = 0x050 (00_scope R5, D2: the document says "conventionally"; log 7). -/
def fontBase : Nat := 0x050

/-- The glyphs of the digits 0..7, 5 bytes each (20_memory R61). -/
def fontLow : List Byte :=
  [0xF0, 0x90, 0x90, 0x90, 0xF0] ++ [0x20, 0x60, 0x20, 0x20, 0x70] ++
  [0xF0, 0x10, 0xF0, 0x80, 0xF0] ++ [0xF0, 0x10, 0xF0, 0x10, 0xF0] ++
  [0x90, 0x90, 0xF0, 0x10, 0x10] ++ [0xF0, 0x80, 0xF0, 0x10, 0xF0] ++
  [0xF0, 0x80, 0xF0, 0x90, 0xF0] ++ [0xF0, 0x10, 0x20, 0x40, 0x40]

/-- The glyphs of the digits 8..F, 5 bytes each (20_memory R61). -/
def fontHigh : List Byte :=
  [0xF0, 0x90, 0xF0, 0x90, 0xF0] ++ [0xF0, 0x90, 0xF0, 0x10, 0xF0] ++
  [0xF0, 0x90, 0xF0, 0x90, 0x90] ++ [0xE0, 0x90, 0xE0, 0x90, 0xE0] ++
  [0xF0, 0x80, 0x80, 0x80, 0xF0] ++ [0xE0, 0x90, 0x90, 0x90, 0xE0] ++
  [0xF0, 0x80, 0xF0, 0x80, 0xF0] ++ [0xF0, 0x80, 0xF0, 0x80, 0x80]

/-- FONT: the 80 glyph bytes (20_memory R61, D3; from general knowledge by the spec's own word, K10; log 7). -/
def font : List Byte := fontLow ++ fontHigh

/-- SUB_EQ_FLAG: what 8XY5 and 8XY7 write to VF when their operands are equal (00_scope R5, D7; log 8). -/
def subEqFlag : Byte := 1

end Sys2Proof.Machine
end

