-- ==== Sys2Proof/Machine/Memory.lean ====
section
/-! DEFINITION. The memory `mem[0..4095]` (spec 10_state R29, 20_memory R50) as the list of the cells that differ from
their reset contents, addresses strictly rising; and the reading and writing of one cell and of a row of cells. -/

namespace Sys2Proof.Machine

/-- The cells that differ from the reset contents, by rising address (log 6). -/
abbrev Memory := List Host.Cell

/-- What an unlisted address reads as: its contents after `reset`, the font table or 0 (10_state R38, 20_memory R51;
log 6). -/
def memInitial (a : Nat) : Byte :=
  if fontBase ≤ a ∧ a < fontBase + Config.fontLen then font.getD (a - fontBase) 0 else 0

/-- mem[a]. -/
def Memory.read : Memory → Nat → Byte
  | [], a => memInitial a
  | (k, b) :: rest, a => if k = a then b else Memory.read rest a

/-- `(a, b)` in front of `rest`, or nothing where `b` is what an unlisted `a` reads as. -/
def Memory.consCell (a : Nat) (b : Byte) (rest : Memory) : Memory :=
  if b = memInitial a then rest else (a, b) :: rest

/-- mem[a] <- b, keeping the canonical form. -/
def Memory.write : Memory → Nat → Byte → Memory
  | [], a, b => Memory.consCell a b []
  | (k, c) :: rest, a, b =>
    if a < k then Memory.consCell a b ((k, c) :: rest)
    else if a = k then Memory.consCell a b rest
    else (k, c) :: Memory.write rest a b

/-- The bytes of the list into mem[a], mem[a+1], ..., ascending. -/
def Memory.writeBytes (m : Memory) (a : Nat) : List Byte → Memory
  | [] => m
  | b :: bs => Memory.writeBytes (m.write a b) (a + 1) bs

/-- mem[a], ..., mem[a+n-1], ascending. -/
def Memory.readBytes (m : Memory) (a : Nat) : Nat → List Byte
  | 0 => []
  | n + 1 => m.read a :: Memory.readBytes m (a + 1) n

/-- The canonical form above a lower bound: rising addresses that exist, no cell equal to its reset contents. -/
def Memory.wfFrom (lo : Nat) : Memory → Bool
  | [] => true
  | (k, b) :: rest => decide (lo ≤ k) && decide (k < Config.memSize) && (b != memInitial k) && Memory.wfFrom (k + 1) rest

/-- The canonical form. -/
def Memory.wf (m : Memory) : Bool := Memory.wfFrom 0 m

end Sys2Proof.Machine
end

