-- ==== Sys2Proof/Machine/State.lean ====
section
/-! DEFINITION. All the state of the machine (spec 10_state R20 to R38, 60_exceptions R176), the state after `reset`, and
the reasons for which a step of the model stops. -/

namespace Sys2Proof.Machine

/-- The execution states of 10_state R35. -/
inductive Status where
  | running
  | awaitingKey
  | faulted
  deriving DecidableEq, Repr

/-- The fault causes of 60_exceptions R170, in the order of their codes. -/
inductive FaultCause where
  | decodeError
  | fetchBounds
  | memBounds
  | stackOverflow
  | stackUnderflow
  | keyIndex
  | fontIndex
  | indexOverflow
  deriving DecidableEq, Repr

/-- The fault record (10_state R36, 60_exceptions R176). -/
structure FaultRecord where
  /-- fault_cause -/
  cause : FaultCause
  /-- fault_opcode; none for FetchBounds, where no opcode was fetched -/
  opcode : Option Word
  /-- fault_pc, the address of the faulting instruction -/
  pc : Word
  /-- fault_info, an exact natural number (R170: up to 0x100FE); none for DecodeError -/
  info : Option Nat
  deriving DecidableEq, Repr

/-- Where the machine stands in its life (70_reset R201, R204): before the first `reset`; in the boot window, after a
`reset` and before the first `cycle` since; after that cycle. Log 4. -/
inductive Phase where
  | unreset
  | boot
  | executing
  deriving DecidableEq, Repr

/-- The host events of 00_scope R7. -/
inductive HostEvent where
  /-- `reset`, the document's `initialize` (70_reset R200) -/
  | reset
  /-- `load_rom(bytes)` (70_reset R204) -/
  | loadRom (bytes : List Byte)
  /-- `cycle`, the document's `execute one cycle` (10_state R40) -/
  | cycle
  /-- `set_keys(k)`, bit j of k = key j pressed (60_exceptions R193) -/
  | setKeys (k : BitVec 16)
  /-- `key_press(idx)` on a 4-bit port (45_keys_timers R163) -/
  | keyPress (idx : Nibble)
  /-- `consume_dirty` (60_exceptions R192) -/
  | consumeDirty
  deriving DecidableEq, Repr

/-- The framebuffer: 32 rows of 64 one-bit cells, bit x of row y is `fb[y*64 + x]` (10_state R32; log 11). -/
abbrev Framebuffer := Vector (BitVec 64) 32

/-- The state of the machine. Field names are the spec's. -/
structure State where
  /-- V0..VF (R20) -/
  V : Vector Byte 16
  /-- the index register (R22) -/
  I : Word
  /-- the program counter (R23) -/
  pc : Word
  /-- the call stack (R25) -/
  stack : Vector Word 16
  /-- the stack pointer, the number of entries in use, 0..16 (R26; log 11) -/
  SP : Fin 17
  /-- the delay timer (R27) -/
  DT : Byte
  /-- the sound timer (R27) -/
  ST : Byte
  /-- the memory (R29) -/
  mem : Memory
  /-- the key matrix, bit j = key j pressed (R30) -/
  keys : BitVec 16
  /-- the target register of the pending FX0A (R31) -/
  keyTarget : RegId
  /-- the framebuffer (R32) -/
  fb : Framebuffer
  /-- the draw-dirty flag (R33) -/
  dirty : Bool
  /-- Running, AwaitingKey or Faulted (R35) -/
  status : Status
  /-- the fault record, none while there is none (R36) -/
  fault : Option FaultRecord
  /-- before the first reset, in the boot window, or after it (70_reset R201, R204) -/
  phase : Phase
  /-- the model's own: how many random bytes have been drawn, which selects the next free draw (log 3) -/
  rndDraws : Nat
  /-- the model's own: the events the host is going to issue, oldest first; none listed means `cycle` (log 2) -/
  pending : List HostEvent
  deriving DecidableEq, Repr

/-- The reasons for a fault outcome: there is none. Every fatal condition of this hardware has its entry described by
60_exceptions R176 (the record is written, status becomes Faulted) and is a next state (log 1). Safe. -/
inductive Fault where
  deriving DecidableEq, Repr

/-- The reasons for a refusal. -/
inductive Refusal where
  /-- Raised by an arm of `exec` that has no meaning yet. Safe. -/
  | notModelled (mnemonic : String)
  /-- Raised by `applyEvent` for any event but `reset` before the first `reset`: "a model should refuse (give no meaning
  to) any event that precedes the first `reset`" (70_reset R201). Safe. -/
  | eventBeforeReset
  /-- Raised by `loadRom` outside the boot window: "at any other time a model refuses it" (70_reset R204). Safe. -/
  | loadRomOutsideBootWindow
  deriving DecidableEq, Repr

/-- What one step answers. -/
abbrev Answer := Host.Outcome State Fault Refusal

/-- The machine right after `reset` (10_state R38): no program is loaded (70_reset R203). The fault record's none and the
values of the model's own fields `rndDraws` and `pending` are the model's choice (log 14, 3, 2). -/
def State.reset : State where
  V := Vector.replicate 16 0
  I := 0
  pc := 0x200
  stack := Vector.replicate 16 0
  SP := 0
  DT := 0
  ST := 0
  mem := []
  keys := 0
  keyTarget := 0
  fb := Vector.replicate 32 0
  dirty := false
  status := .running
  fault := none
  phase := .boot
  rndDraws := 0
  pending := []

end Sys2Proof.Machine
end

