-- ==== Sys2Proof/Machine/Ops.lean ====
section
/-! DEFINITION. The named operations over registers, memory and the stack, the address translator, the fetch, the timer
tick, and the entry of a fault with the one way out of it (spec 00_scope R10, 20_memory R56 to R59, 60_exceptions R176). -/

namespace Sys2Proof.Machine

/-! ## Registers and pc -/

/-- V[x]. -/
def State.reg (s : State) (x : RegId) : Byte := s.V[x.val]

/-- V[x] <- b. No register is hardwired (10_state R20). -/
def State.setReg (s : State) (x : RegId) (b : Byte) : State := { s with V := s.V.set x.val b }

/-- V[15] <- flag, then V[x] <- result: the flag setter's order, so that the result wins when x = 15 (42_alu R121). -/
def State.setFlagThenReg (s : State) (x : RegId) (flag result : Byte) : State := (s.setReg 15 flag).setReg x result

/-- pc <- pc + n (10_state R24; log 10). -/
def State.advance (s : State) (n : Nat) : State := { s with pc := s.pc + BitVec.ofNat 16 n }

/-- pc <- pc + 2, every instruction's default (10_state R24). -/
def State.pcPlus2 (s : State) : State := s.advance 2

/-- A skip: pc + 4 on a match, else pc + 2 (10_state R24, 41_skips R114). -/
def State.skipIf (s : State) (c : Bool) : State := s.advance (if c then 4 else 2)

/-! ## The call stack (10_state R25, R26) -/

/-- stack[SP] <- a; SP <- SP + 1; none when the stack is full. -/
def State.push (s : State) (a : Word) : Option State :=
  if h : s.SP.val < 16 then some { s with stack := s.stack.set s.SP.val a, SP := ⟨s.SP.val + 1, by omega⟩ } else none

/-- SP <- SP - 1; the popped stack[SP]; none when the stack is empty. The entry stays where it is (40_control_flow R101). -/
def State.pop (s : State) : Option (Word × State) :=
  if h : s.SP.val = 0 then none
  else some (s.stack[s.SP.val - 1]'(by omega), { s with SP := ⟨s.SP.val - 1, by omega⟩ })

/-! ## The memory address translator (20_memory R57 to R59) -/

/-- The kinds of access of R56. -/
inductive AccessKind where
  | fetch
  | data
  deriving DecidableEq, Repr

/-- An access at an address that does not exist: the cause and the address reported. -/
structure BadAccess where
  cause : FaultCause
  address : Nat
  deriving DecidableEq, Repr

/-- The bounds fault of a kind (R57). -/
def boundsCause : AccessKind → FaultCause
  | .fetch => .fetchBounds
  | .data => .memBounds

/-- Translate(a, kind): the identity below 4096, else the bounds fault of the kind (R57). -/
def translate (a : Nat) (kind : AccessKind) : Except BadAccess Nat :=
  if a < Config.memSize then .ok a else .error ⟨boundsCause kind, a⟩

/-- MemRead(a, 1) (R56). -/
def State.memRead1 (s : State) (a : Nat) (kind : AccessKind) : Except BadAccess Byte :=
  match translate a kind with
  | .ok p => .ok (s.mem.read p)
  | .error e => .error e

/-- MemRead(a, 2), the fetch, big-endian (R53, R56): the byte at a is translated first (R58). -/
def State.memRead2 (s : State) (a : Nat) : Except BadAccess Word :=
  match s.memRead1 a .fetch with
  | .error e => .error e
  | .ok hi =>
    match s.memRead1 (a + 1) .fetch with
    | .error e => .error e
    | .ok lo => .ok (wordOfBytes hi lo)

/-- Step 1 of the cycle: the opcode at pc (10_state R40). -/
def State.fetch (s : State) : Except BadAccess Word := s.memRead2 s.pc.toNat

/-- The check of a data range of n bytes at base before any of its writes: the lowest address out of range, if any; an
empty range never faults (R59). -/
def badDataAddress (base n : Nat) : Option Nat :=
  if 0 < n ∧ Config.memSize ≤ base + n - 1 then some (max base Config.memSize) else none

/-! ## Timers -/

/-- A counter's tick: down by 1, never below 0 (10_state R41). -/
def tickDown (b : Byte) : Byte := if b = 0 then 0 else b - 1

/-- TimerTick (10_state R41). -/
def State.timerTick (s : State) : State := { s with DT := tickDown s.DT, ST := tickDown s.ST }

/-! ## The entry of a fault, and the way out of it -/

/-- Fault entry (60_exceptions R176): the record is written and status becomes Faulted; nothing else changes and pc stays
at the faulting instruction. It is shared by every fault: the fetch, the decoder and the instructions. -/
def State.takeFault (s : State) (cause : FaultCause) (opcode : Option Word) (info : Option Nat) : State :=
  { s with status := .faulted, fault := some ⟨cause, opcode, s.pc, info⟩ }

/-- The fault an instruction raises in its Execute step: the record's opcode is the instruction's own word (R170, R176;
log 12). -/
def State.raise (s : State) (cause : FaultCause) (i : Instr) (info : Option Nat) : Answer :=
  .next (s.takeFault cause (some (encode i)) info)

/-- The host event `reset` (70_reset R200), which is also the only way out of Faulted (60_exceptions R182): every element
of the spec's state takes its reset value. The model's own fields stay: what the host is still going to issue, and how
many random bytes have been drawn (log 2, 3). -/
def State.initialise (s : State) : State := { State.reset with rndDraws := s.rndDraws, pending := s.pending }

/-! ## The free random byte -/

/-- A fresh draw of `rnd_in` (42_alu R138): the byte, and the state whose next draw is another one (log 3). -/
def State.draw (s : State) : Byte × State := (Config.rndIn s.rndDraws, { s with rndDraws := s.rndDraws + 1 })

end Sys2Proof.Machine
end

