-- ==== Sys2Proof/Machine/Operands.lean ====
section
/-! DEFINITION. The operand forms of the instructions: immediates, the addressing mode of I, digits of a byte, the key
and glyph that a register names (spec 30_encoding R82, 43_index_memory R146). -/

namespace Sys2Proof.Machine

/-- NNN zero-extended to 16 bits (30_encoding R82). -/
def zextAddr (nnn : Addr12) : Word := nnn.setWidth 16

/-- NNN + V[0], the exact sum, at most 0x10FE (40_control_flow R104). -/
def State.jumpV0Target (s : State) (nnn : Addr12) : Word := BitVec.ofNat 16 (nnn.toNat + (s.reg 0).toNat)

/-- The base address of the only data addressing mode, I + 0 (43_index_memory R146). -/
def State.dataBase (s : State) : Nat := s.I.toNat

/-- V[0], ..., V[x], ascending: what FX55 stores (43_index_memory R144). -/
def State.regsUpTo (s : State) (x : RegId) : List Byte := s.V.toList.take (x.val + 1)

/-- V[i] <- mem[base + i] for i = 0..x, the other registers as they are: what FX65 loads (43_index_memory R145). -/
def State.loadRegsUpTo (s : State) (x : RegId) (base : Nat) : State :=
  { s with V := Vector.ofFn fun i => if i ≤ x then s.mem.read (base + i.val) else s.reg i }

/-- The hundreds, tens and ones digit of a byte, most significant first (43_index_memory R143). -/
def bcdDigits (v : Byte) : List Byte :=
  [BitVec.ofNat 8 (v.toNat / 100), BitVec.ofNat 8 (v.toNat / 10 % 10), BitVec.ofNat 8 (v.toNat % 10)]

/-- FontAddr(d) = FONT_BASE + 5 * d (20_memory R60). -/
def fontAddr (d : Nat) : Nat := fontBase + 5 * d

/-- keys[k] (10_state R30). -/
def State.keyDown (s : State) (k : Nat) : Bool := s.keys.getLsbD k

/-- `rnd_in` AND NN AND V[x], both masks applied (42_alu R138). -/
def rndResult (v r nn : Byte) : Byte := v &&& (r &&& nn)

end Sys2Proof.Machine
end

