-- ==== Sys2Proof/Machine/Flags.lean ====
section
/-! DEFINITION. The flag setter: the values VF receives (spec 10_state R34, 42_alu R120, R121). There is no other flag
register. -/

namespace Sys2Proof.Machine

/-- A flag is stored as the byte 0x00 or 0x01 (10_state R21). -/
def flagByte (c : Bool) : Byte := if c then 1 else 0

/-- 8XY4: the carry of the exact sum (42_alu R128). -/
def carryFlag (a b : Byte) : Byte := flagByte (decide (255 < a.toNat + b.toNat))

/-- 8XY5 and 8XY7: 1 when a - b needs no borrow; SUB_EQ_FLAG when a = b (42_alu R129, R131; log 8). -/
def noBorrowFlag (a b : Byte) : Byte := if a = b then subEqFlag else flagByte (decide (b.toNat < a.toNat))

/-- 8XY6: the bit shifted out, bit 0 (42_alu R130). -/
def shrFlag (a : Byte) : Byte := flagByte (a.getLsbD 0)

/-- 8XYE: the bit shifted out, bit 7 (42_alu R132). -/
def shlFlag (a : Byte) : Byte := flagByte (a.getLsbD 7)

/-- DXYN: the collision (44_display R151). -/
def collisionFlag (c : Bool) : Byte := flagByte c

/-- The sum mod 256 (42_alu R120, R128). -/
def addResult (a b : Byte) : Byte := BitVec.ofNat 8 (a.toNat + b.toNat)

/-- (a - b) mod 256 (42_alu R120). -/
def subResult (a b : Byte) : Byte := BitVec.ofNat 8 (a.toNat + 256 - b.toNat)

/-- a div 2 (42_alu R130). -/
def shrResult (a : Byte) : Byte := BitVec.ofNat 8 (a.toNat / 2)

/-- (a * 2) mod 256 (42_alu R132). -/
def shlResult (a : Byte) : Byte := BitVec.ofNat 8 (a.toNat * 2)

end Sys2Proof.Machine
end

