-- ==== Sys2Proof/Machine/Framebuffer.lean ====
section
/-! DEFINITION. The framebuffer write arbiter (spec 44_display R151 to R153): the cells, the XOR of one pixel, of a sprite
row and of a sprite, with its collision. -/

namespace Sys2Proof.Machine

/-- The cell at column x and row y, `fb[y*64 + x]`; outside the screen there is no cell (10_state R32). -/
def Framebuffer.pixel (fb : Framebuffer) (x y : Nat) : Bool := if h : y < 32 then (fb[y]'h).getLsbD x else false

/-- The cell `fb[j]` of the flat sequence, j in 0..2047, row-major (10_state R32). -/
def Framebuffer.cell (fb : Framebuffer) (j : Nat) : Bool := fb.pixel (j % 64) (j / 64)

/-- All 2048 cells 0 (44_display R150). -/
def Framebuffer.clear : Framebuffer := Vector.replicate 32 0

/-- A drawing in progress: the cells and whether a 1 cell has become 0 so far (R151). -/
structure Canvas where
  fb : Framebuffer
  collision : Bool
  deriving DecidableEq, Repr

/-- One sprite bit at (x, y): nothing where the bit is 0 or the place is off the screen (clip, never wrap, R153); else a
collision if the cell is 1, and the cell is inverted (R151). -/
def Canvas.plot (c : Canvas) (x y : Nat) (bit : Bool) : Canvas :=
  if h : y < 32 then
    if x < 64 ∧ bit = true then
      { fb := c.fb.set y (c.fb[y] ^^^ BitVec.twoPow 64 x), collision := c.collision || c.fb[y].getLsbD x }
    else c
  else c

/-- The columns c = 0, 1, ..., n-1 of a sprite row with its leftmost pixel, bit 7, at (x0, y) (R151). -/
def Canvas.plotCols (cv : Canvas) (b : Byte) (x0 y : Nat) : Nat → Canvas
  | 0 => cv
  | n + 1 => (Canvas.plotCols cv b x0 y n).plot (x0 + n) y (b.getLsbD (7 - n))

/-- The rows of a sprite from y downward (R151). -/
def Canvas.plotRows (cv : Canvas) (x0 y : Nat) : List Byte → Canvas
  | [] => cv
  | b :: bs => Canvas.plotRows (cv.plotCols b x0 y 8) x0 (y + 1) bs

/-- The sprite of the n bytes at base, drawn with its top left corner at (x0, y0) (R151). -/
def State.drawSprite (s : State) (x0 y0 base n : Nat) : Canvas :=
  Canvas.plotRows ⟨s.fb, false⟩ x0 y0 (s.mem.readBytes base n)

end Sys2Proof.Machine
end

