-- ==== Sys2Proof/Machine/Alu.lean ====
section
/-! DEFINITION. Register loads, ALU and random (spec 42_alu R120 to R138). -/

namespace Sys2Proof.Machine

/-- V[x] <- b; pc <- pc + 2: the shape of the instructions without a flag. -/
def State.writeResult (s : State) (x : RegId) (b : Byte) : Answer := .next (s.setReg x b).pcPlus2

/-- V[15] <- flag; V[x] <- result; pc <- pc + 2: the shape of the instructions with a flag (R121). -/
def State.writeFlagResult (s : State) (x : RegId) (flag result : Byte) : Answer :=
  .next (s.setFlagThenReg x flag result).pcPlus2

/-- 6XNN LD Vx, byte (R122). -/
def execLdImm (x : RegId) (nn : Byte) (s : State) : Answer := s.writeResult x nn

/-- 7XNN ADD Vx, byte (R123): no flag (D8). -/
def execAddImm (x : RegId) (nn : Byte) (s : State) : Answer := s.writeResult x (addResult (s.reg x) nn)

/-- 8XY0 LD Vx, Vy (R124). -/
def execLdReg (x y : RegId) (s : State) : Answer := s.writeResult x (s.reg y)

/-- 8XY1 OR (R125): no flag (D8). -/
def execOrReg (x y : RegId) (s : State) : Answer := s.writeResult x (s.reg x ||| s.reg y)

/-- 8XY2 AND (R126): no flag (D8). -/
def execAndReg (x y : RegId) (s : State) : Answer := s.writeResult x (s.reg x &&& s.reg y)

/-- 8XY3 XOR (R127): no flag (D8). -/
def execXorReg (x y : RegId) (s : State) : Answer := s.writeResult x (s.reg x ^^^ s.reg y)

/-- 8XY4 ADD Vx, Vy (R128). -/
def execAddReg (x y : RegId) (s : State) : Answer :=
  s.writeFlagResult x (carryFlag (s.reg x) (s.reg y)) (addResult (s.reg x) (s.reg y))

/-- 8XY5 SUB (R129): V[x] - V[y]. -/
def execSubReg (x y : RegId) (s : State) : Answer :=
  s.writeFlagResult x (noBorrowFlag (s.reg x) (s.reg y)) (subResult (s.reg x) (s.reg y))

/-- 8XY6 SHR (R130): V[y] is neither read nor written (D9). -/
def execShr (x _y : RegId) (s : State) : Answer := s.writeFlagResult x (shrFlag (s.reg x)) (shrResult (s.reg x))

/-- 8XY7 SUBN (R131): V[y] - V[x]. -/
def execSubnReg (x y : RegId) (s : State) : Answer :=
  s.writeFlagResult x (noBorrowFlag (s.reg y) (s.reg x)) (subResult (s.reg y) (s.reg x))

/-- 8XYE SHL (R132): V[y] is neither read nor written (D9). -/
def execShl (x _y : RegId) (s : State) : Answer := s.writeFlagResult x (shlFlag (s.reg x)) (shlResult (s.reg x))

/-- CXNN RND (R138): a fresh draw, ANDed with NN and into V[x] (C9). -/
def execRnd (x : RegId) (nn : Byte) (s : State) : Answer :=
  s.draw.2.writeResult x (rndResult (s.reg x) s.draw.1 nn)

end Sys2Proof.Machine
end

