-- ==== Sys2Proof/Machine/Control.lean ====
section
/-! DEFINITION. Control flow: SYS, RET, JP, CALL, JP V0 (spec 40_control_flow R100 to R106). -/

namespace Sys2Proof.Machine

/-- 0NNN SYS (R100): raise DecodeError, always. -/
def execSys (nnn : Addr12) (s : State) : Answer := s.raise .decodeError (.sys nnn) none

/-- 00EE RET (R101): pop the address of the CALL, pc past it; StackUnderflow on an empty stack (R174). -/
def execRet (s : State) : Answer :=
  match s.pop with
  | none => s.raise .stackUnderflow .ret (some s.SP.val)
  | some (a, t) => .next { t with pc := a + 2 }

/-- 1NNN JP (R102). -/
def execJp (nnn : Addr12) (s : State) : Answer := .next { s with pc := zextAddr nnn }

/-- 2NNN CALL (R103): push the address of this CALL (R105), jump; StackOverflow on a full stack (R173). -/
def execCall (nnn : Addr12) (s : State) : Answer :=
  match s.push s.pc with
  | none => s.raise .stackOverflow (.call nnn) (some s.SP.val)
  | some t => .next { t with pc := zextAddr nnn }

/-- BNNN JP V0 (R104): pc <- NNN + V[0], not masked. -/
def execJpV0 (nnn : Addr12) (s : State) : Answer := .next { s with pc := s.jumpV0Target nnn }

end Sys2Proof.Machine
end

