-- ==== Sys2Proof/Machine/Display.lean ====
section
/-! DEFINITION. The display instructions, the only writers of the framebuffer and of `dirty` among the instructions (spec
44_display R150 to R153). -/

namespace Sys2Proof.Machine

/-- 00E0 CLS (R150): `dirty` is set even when nothing changes (C2). -/
def execCls (s : State) : Answer := .next { s with fb := Framebuffer.clear, dirty := true }.pcPlus2

/-- DXYN DRW (R151): the coordinates are read before VF is written; all n row addresses are checked before anything is
written (R59, R172); `dirty` is set by every DRW that does not fault (C2). -/
def execDrw (x y : RegId) (n : Nibble) (s : State) : Answer :=
  match badDataAddress s.dataBase n.toNat with
  | some a => s.raise .memBounds (.drw x y n) (some a)
  | none =>
    let cv := s.drawSprite (s.reg x).toNat (s.reg y).toNat s.dataBase n.toNat
    .next ({ s with fb := cv.fb, dirty := true }.setReg 15 (collisionFlag cv.collision)).pcPlus2

end Sys2Proof.Machine
end

