-- ==== Sys2Proof/Machine/Index.lean ====
section
/-! DEFINITION. The index register and memory instructions (spec 43_index_memory R140 to R146). -/

namespace Sys2Proof.Machine

/-- ANNN LD I, addr (R140). -/
def execLdI (nnn : Addr12) (s : State) : Answer := .next { s with I := zextAddr nnn }.pcPlus2

/-- FX1E ADD I, Vx (R141): the exact sum, IndexOverflow when it does not fit 16 bits (R178); VF is not written. -/
def execAddI (x : RegId) (s : State) : Answer :=
  let sum := s.I.toNat + (s.reg x).toNat
  if 0xFFFF < sum then s.raise .indexOverflow (.addI x) (some sum)
  else .next { s with I := BitVec.ofNat 16 sum }.pcPlus2

/-- FX29 LD F, Vx (R142): I at the glyph of the digit V[x], FontIndex when it is above 15 (R177). -/
def execLdF (x : RegId) (s : State) : Answer :=
  let d := (s.reg x).toNat
  if 15 < d then s.raise .fontIndex (.ldF x) (some d)
  else .next { s with I := BitVec.ofNat 16 (fontAddr d) }.pcPlus2

/-- FX33 LD B, Vx (R143): the three digits of V[x] at I, I+1, I+2, MemBounds before any write (R172). -/
def execLdB (x : RegId) (s : State) : Answer :=
  match badDataAddress s.dataBase 3 with
  | some a => s.raise .memBounds (.ldB x) (some a)
  | none => .next { s with mem := s.mem.writeBytes s.dataBase (bcdDigits (s.reg x)) }.pcPlus2

/-- FX55 LD [I], Vx (R144): V[0..x] to I.., MemBounds before any write (R172); I is not mutated. -/
def execLdMemVx (x : RegId) (s : State) : Answer :=
  match badDataAddress s.dataBase (x.val + 1) with
  | some a => s.raise .memBounds (.ldMemVx x) (some a)
  | none => .next { s with mem := s.mem.writeBytes s.dataBase (s.regsUpTo x) }.pcPlus2

/-- FX65 LD Vx, [I] (R145): V[0..x] from I.., MemBounds before any write (R172); I is not mutated. -/
def execLdVxMem (x : RegId) (s : State) : Answer :=
  match badDataAddress s.dataBase (x.val + 1) with
  | some a => s.raise .memBounds (.ldVxMem x) (some a)
  | none => .next (s.loadRegsUpTo x s.dataBase).pcPlus2

end Sys2Proof.Machine
end

