-- ==== Sys2Proof/Machine/KeysTimers.lean ====
section
/-! DEFINITION. The key and timer instructions (spec 45_keys_timers R160 to R166). -/

namespace Sys2Proof.Machine

/-- EX9E SKP (R160): skip when the key V[x] is pressed, KeyIndex when there is no such key (R175). -/
def execSkp (x : RegId) (s : State) : Answer :=
  let k := (s.reg x).toNat
  if 15 < k then s.raise .keyIndex (.skp x) (some k) else .next (s.skipIf (s.keyDown k))

/-- EXA1 SKNP (R161): skip when the key V[x] is released, KeyIndex when there is no such key (R175). -/
def execSknp (x : RegId) (s : State) : Answer :=
  let k := (s.reg x).toNat
  if 15 < k then s.raise .keyIndex (.sknp x) (some k) else .next (s.skipIf (!s.keyDown k))

/-- FX07 LD Vx, DT (R164). -/
def execLdVxDT (x : RegId) (s : State) : Answer := .next (s.setReg x s.DT).pcPlus2

/-- FX0A LD Vx, K (R162): wait for a key; pc and V[x] stay until the `key_press` event (R163). -/
def execLdVxK (x : RegId) (s : State) : Answer := .next { s with keyTarget := x, status := .awaitingKey }

/-- FX15 LD DT, Vx (R165). -/
def execLdDTVx (x : RegId) (s : State) : Answer := .next { s with DT := s.reg x }.pcPlus2

/-- FX18 LD ST, Vx (R166). -/
def execLdSTVx (x : RegId) (s : State) : Answer := .next { s with ST := s.reg x }.pcPlus2

end Sys2Proof.Machine
end

