-- ==== Sys2Proof/Machine/Skips.lean ====
section
/-! DEFINITION. Conditional skips: SE, SNE (spec 41_skips R110 to R114). -/

namespace Sys2Proof.Machine

/-- 3XNN SE Vx, byte (R110). -/
def execSeImm (x : RegId) (nn : Byte) (s : State) : Answer := .next (s.skipIf (s.reg x == nn))

/-- 4XNN SNE Vx, byte (R111). -/
def execSneImm (x : RegId) (nn : Byte) (s : State) : Answer := .next (s.skipIf (s.reg x != nn))

/-- 5XY0 SE Vx, Vy (R112). -/
def execSeReg (x y : RegId) (s : State) : Answer := .next (s.skipIf (s.reg x == s.reg y))

/-- 9XY0 SNE Vx, Vy (R113). -/
def execSneReg (x y : RegId) (s : State) : Answer := .next (s.skipIf (s.reg x != s.reg y))

end Sys2Proof.Machine
end

