-- ==== Sys2Proof/Machine/Cycle.lean ====
section
/-! DEFINITION. The event `cycle`: fetch, decode, execute, timer tick (spec 10_state R40 to R42, 60_exceptions R180). -/

namespace Sys2Proof.Machine

/-- Step 4: the tick, if the status is Running after Execute; so neither the FX0A cycle nor a faulting cycle ticks (R40). -/
def State.endCycle (s : State) : State := if s.status = .running then s.timerTick else s

/-- Steps 3 and 4 on a decoded instruction. -/
def executeAndTick (i : Instr) (s : State) : Answer :=
  match exec i s with
  | .next t => .next t.endCycle
  | .fault f => .fault f
  | .refused r => .refused r

/-- Steps 2 to 4 on a fetched opcode: an undefined one raises DecodeError with the opcode and pc (30_encoding R84). -/
def decodeAndExecute (op : Word) (s : State) : Answer :=
  match decodeOp op with
  | .ok i => executeAndTick i s
  | .reject _ => .next (s.takeFault .decodeError (some op) none)

/-- The four steps of a cycle in Running. -/
def runCycle (s : State) : Answer :=
  match s.fetch with
  | .error e => .next (s.takeFault e.cause none (some e.address))
  | .ok op => decodeAndExecute op s

/-- `cycle` (R40): nothing changes while AwaitingKey or Faulted (R42); a cycle in Running closes the boot window (70_reset
R204). -/
def cycle (s : State) : Answer :=
  match s.status with
  | .running => runCycle { s with phase := .executing }
  | .awaitingKey => .next s
  | .faulted => .next s

end Sys2Proof.Machine
end

