-- ==== Sys2Proof/Machine/Events.lean ====
section
/-! DEFINITION. The host's side of the machine (spec 00_scope R7): the effect of every event, its result, and the outputs
that are not fields of State. -/

namespace Sys2Proof.Machine

/-- `load_rom(bytes)` (70_reset R204): the bytes from 0x200 in the boot window; too long a ROM changes nothing; outside the
boot window the event is refused. Log 5. -/
def State.loadRom (s : State) (bytes : List Byte) : Answer :=
  if s.phase = .boot then
    if Config.romMax < bytes.length then .next s
    else .next { s with mem := s.mem.writeBytes Config.progBase bytes }
  else .refused .loadRomOutsideBootWindow

/-- `set_keys(k)` (60_exceptions R193). -/
def State.setKeys (s : State) (k : BitVec 16) : State := { s with keys := k }

/-- `key_press(idx)` (45_keys_timers R163): completes a pending FX0A; else ignored and not remembered. -/
def State.keyPress (s : State) (idx : Nibble) : State :=
  if s.status = .awaitingKey then { (s.setReg s.keyTarget (idx.setWidth 8)).pcPlus2 with status := .running } else s

/-- `consume_dirty` (60_exceptions R192). -/
def State.consumeDirty (s : State) : State := { s with dirty := false }

/-- One host event (00_scope R6, R7). Before the first reset every event but `reset` is refused (70_reset R201). -/
def applyEvent (e : HostEvent) (s : State) : Answer :=
  match e with
  | .reset => .next s.initialise
  | .loadRom bytes => if s.phase = .unreset then .refused .eventBeforeReset else s.loadRom bytes
  | .cycle => if s.phase = .unreset then .refused .eventBeforeReset else cycle s
  | .setKeys k => if s.phase = .unreset then .refused .eventBeforeReset else .next (s.setKeys k)
  | .keyPress idx => if s.phase = .unreset then .refused .eventBeforeReset else .next (s.keyPress idx)
  | .consumeDirty => if s.phase = .unreset then .refused .eventBeforeReset else .next s.consumeDirty

/-- The oldest event the host is going to issue; `cycle` when none is listed (log 2). -/
def applyPending (s : State) : Answer :=
  match s.pending with
  | [] => applyEvent .cycle s
  | e :: rest => applyEvent e { s with pending := rest }

/-! ## Outputs -/

/-- `sound_active` (60_exceptions R190). -/
def State.soundActive (s : State) : Bool := s.ST != 0

/-- The code of a fault cause (60_exceptions R170). -/
def causeCode : FaultCause → Nat
  | .decodeError => 1
  | .fetchBounds => 2
  | .memBounds => 3
  | .stackOverflow => 4
  | .stackUnderflow => 5
  | .keyIndex => 6
  | .fontIndex => 7
  | .indexOverflow => 8

/-- What an event hands to the host beside its effect (log 19). -/
inductive HostReply where
  | done
  /-- `load_rom` refused as RomTooLarge (70_reset R204) -/
  | romTooLarge
  /-- the framebuffer snapshot that `consume_dirty` takes (60_exceptions R192, 20_memory R74) -/
  | frame (fb : Framebuffer)
  /-- `consume_dirty` with nothing new to show -/
  | noFrame
  deriving DecidableEq, Repr

/-- The result of an event, issued in the state `s`. DESIGN CHOICE (log 19): it means something only where `applyEvent e s`
answers a next state. Where that is a refusal (any event but `reset` before the first reset, `load_rom` outside the boot window)
the refusal is what the host is told, and the value here, which looks only at the length of the ROM and at `dirty`, is no
report (70_reset R201, R204). -/
def hostReply (e : HostEvent) (s : State) : HostReply :=
  match e with
  | .reset | .cycle | .setKeys _ | .keyPress _ => .done
  | .loadRom bytes => if Config.romMax < bytes.length then .romTooLarge else .done
  | .consumeDirty => if s.dirty then .frame s.fb else .noFrame

/-! ## Where the next fetch reads -/

/-- The address of the next fetch, moved to PROG_BASE where pc allows no fetch (20_memory R58). -/
def State.fetchable (s : State) : Word := if s.pc.toNat + 1 < Config.memSize then s.pc else 0x200

/-- `s` about to execute the word `op`: the word at the next fetch address, the status Running, after a reset, and no other
host event before the cycle. -/
def State.aboutToRun (s : State) (op : Word) : State :=
  { s with
    pc := s.fetchable
    mem := s.mem.writeBytes s.fetchable.toNat [opHigh op, opLow op]
    status := .running
    phase := if s.phase = .unreset then .boot else s.phase
    pending := [] }

end Sys2Proof.Machine
end

