-- ==== Sys2Proof/Machine/Step.lean ====
section
/-! DEFINITION. One step of the machine: the next host event, which is a `cycle` unless the host has listed another (spec
00_scope R6, R7, R8). -/

namespace Sys2Proof.Machine

/-- One step. -/
def step (s : State) : Host.Outcome State Fault Refusal := applyPending s

/-- `s` with the instruction of the word `w` where the next step fetches (the host's probe; log 15). -/
def State.withFetchWord (s : State) (nbits w : Nat) : State := s.aboutToRun (BitVec.ofNat 16 (w % 2 ^ nbits))

end Sys2Proof.Machine
end

