-- ==== Sys2Proof/Safety.lean ====
section
/-! DEFINITION. What counts as a safe run, the invariant of the machine, and the words in which the statements say what an
instruction leaves unchanged. -/

namespace Sys2Proof.Machine

/-- A state that a run may end in: Faulted is never a successful end (spec 60_exceptions R182). -/
def State.sound (s : State) : Prop := s.status ≠ .faulted

/-- A run of any number of steps from `s` never faults and is never refused (60_exceptions R182). -/
def SafeRun (s : State) : Prop :=
  ∀ n, ∃ t, Sys2Proof.core.run n s = .next t ∧ State.sound t

/-- What holds of every state from the reset state on, whatever the host does. -/
structure Inv (s : State) : Prop where
  /-- the memory is in its canonical form -/
  memCanonical : s.mem.wf = true
  /-- a stack entry is the address of an executed CALL or the reset value, so it allows a fetch (10_state R24) -/
  stackBound : ∀ j : Fin 16, s.stack[j.val].toNat ≤ 0xFFE
  /-- pc never exceeds 0x10FE (10_state R23) -/
  pcBound : s.pc.toNat ≤ 0x10FE
  /-- while waiting, pc is the address of the FX0A (45_keys_timers R162) -/
  waitingPc : s.status = .awaitingKey → s.pc.toNat ≤ 0xFFE
  /-- there is a fault record exactly in Faulted (60_exceptions R176) -/
  faultRecorded : s.status = .faulted ↔ s.fault.isSome = true
  /-- the record's pc is the address of the faulting instruction, where pc stays (60_exceptions R176) -/
  faultPc : ∀ r, s.fault = some r → r.pc = s.pc
  /-- the record has an opcode but for FetchBounds, and an info but for DecodeError (60_exceptions R170) -/
  faultFields : ∀ r, s.fault = some r → (r.opcode = none ↔ r.cause = .fetchBounds) ∧ (r.info = none ↔ r.cause = .decodeError)
  /-- in the boot window no cycle has run (70_reset R204) -/
  bootState : s.phase = .boot → s.status = .running ∧ s.pc = 0x200 ∧ s.SP = 0

/-! ## What a step from `s` to `t` leaves unchanged -/

/-- Every V register but those of `dest`. -/
def RegsKeptBut (dest : RegId → Prop) (s t : State) : Prop := ∀ r, ¬ dest r → t.reg r = s.reg r

/-- Every V register. -/
def RegsKept (s t : State) : Prop := ∀ r, t.reg r = s.reg r

/-- Every byte of memory. -/
def MemKept (s t : State) : Prop := ∀ a, t.mem.read a = s.mem.read a

/-- Every byte of memory but the n bytes at base. -/
def MemKeptOutside (base n : Nat) (s t : State) : Prop :=
  ∀ a, a < base ∨ base + n ≤ a → t.mem.read a = s.mem.read a

/-- The call stack and SP. -/
def StackKept (s t : State) : Prop := t.stack = s.stack ∧ t.SP = s.SP

/-- Both timers. -/
def TimersKept (s t : State) : Prop := t.DT = s.DT ∧ t.ST = s.ST

/-- The key matrix and key_target. -/
def KeysKept (s t : State) : Prop := t.keys = s.keys ∧ t.keyTarget = s.keyTarget

/-- The framebuffer and the draw-dirty flag. -/
def DisplayKept (s t : State) : Prop := t.fb = s.fb ∧ t.dirty = s.dirty

/-- The status and the fault record: no fault was taken. -/
def StatusKept (s t : State) : Prop := t.status = s.status ∧ t.fault = s.fault

/-- The phase of life and the model's own fields. -/
def HostSideKept (s t : State) : Prop := t.phase = s.phase ∧ t.pending = s.pending ∧ t.rndDraws = s.rndDraws

/-- Only pc and the V registers of `dest` may differ. -/
def OnlyRegsChange (dest : RegId → Prop) (s t : State) : Prop :=
  RegsKeptBut dest s t ∧ t.I = s.I ∧ MemKept s t ∧ StackKept s t ∧ TimersKept s t ∧ KeysKept s t ∧ DisplayKept s t ∧
    StatusKept s t ∧ HostSideKept s t

/-- Only pc may differ. -/
def OnlyPcChanges (s t : State) : Prop := OnlyRegsChange (fun _ => False) s t

/-- Only pc and I may differ. -/
def OnlyIndexChanges (s t : State) : Prop :=
  RegsKept s t ∧ MemKept s t ∧ StackKept s t ∧ TimersKept s t ∧ KeysKept s t ∧ DisplayKept s t ∧ StatusKept s t ∧
    HostSideKept s t

/-- Only pc and the n bytes of memory at base may differ. -/
def OnlyMemChanges (base n : Nat) (s t : State) : Prop :=
  MemKeptOutside base n s t ∧ RegsKept s t ∧ t.I = s.I ∧ StackKept s t ∧ TimersKept s t ∧ KeysKept s t ∧ DisplayKept s t ∧
    StatusKept s t ∧ HostSideKept s t

/-- Only pc, the stack and SP may differ. -/
def OnlyStackChanges (s t : State) : Prop :=
  RegsKept s t ∧ t.I = s.I ∧ MemKept s t ∧ TimersKept s t ∧ KeysKept s t ∧ DisplayKept s t ∧ StatusKept s t ∧
    HostSideKept s t

/-- Fault entry (60_exceptions R176): the record and the status are written, everything else is as before. -/
def FaultEntry (s t : State) (cause : FaultCause) (opcode : Option Word) (info : Option Nat) : Prop :=
  t.status = .faulted ∧ t.fault = some ⟨cause, opcode, s.pc, info⟩ ∧
    t.V = s.V ∧ t.I = s.I ∧ t.pc = s.pc ∧ t.stack = s.stack ∧ t.SP = s.SP ∧ t.DT = s.DT ∧ t.ST = s.ST ∧ t.mem = s.mem ∧
    t.keys = s.keys ∧ t.keyTarget = s.keyTarget ∧ t.fb = s.fb ∧ t.dirty = s.dirty ∧ HostSideKept s t

end Sys2Proof.Machine
end

