-- ==== Sys2Proof/Certificates/Slice0/Obligations.lean ====
section
/-! DEFINITION. The statements for the provers. They come from the numbered rules of the spec; what each formalises stands
in its docstring and in OBLIGATIONS.json. -/

namespace Sys2Proof.Machine

/-- The instruction completes in `s`: its Execute step answers a next state, of which `P` holds. -/
def Completes (i : Instr) (s : State) (P : State → Prop) : Prop := ∃ t, exec i s = .next t ∧ P t

/-- The instruction has the opcode `n` and no other word (30_encoding R81, R85). -/
def HasOpcode (i : Instr) (n : Nat) : Prop :=
  n < 65536 ∧ ∀ op : Word, decodeOp op = .ok i ↔ op.toNat = n

/-- V[x] ends with value `v` (a natural number below 256), pc is moved by 2, and nothing else changes (42_alu). -/
def WritesOneReg (i : Instr) (s : State) (x : RegId) (v : Nat) : Prop :=
  Completes i s fun t => (t.reg x).toNat = v ∧ t.pc = s.pc + 2 ∧ OnlyRegsChange (· = x) s t

/-- The flag goes to VF and then the result to V[x], so that the result stays when x = 15; pc is moved by 2, and nothing
else changes (42_alu R121). -/
def WritesFlagThenResult (i : Instr) (s : State) (x : RegId) (flag result : Nat) : Prop :=
  Completes i s fun t =>
    (t.reg x).toNat = result ∧ (x ≠ 15 → (t.reg 15).toNat = flag) ∧ t.pc = s.pc + 2 ∧
      OnlyRegsChange (fun r => r = x ∨ r = 15) s t

/-- pc is moved by 4 where the condition holds and by 2 where not, and nothing else changes (41_skips). -/
def SkipsIf (i : Instr) (s : State) (c : Prop) : Prop :=
  Completes i s fun t => (c → t.pc = s.pc + 4) ∧ (¬ c → t.pc = s.pc + 2) ∧ OnlyPcChanges s t

/-- The instruction raises the fault, with its own word as the record's opcode (60_exceptions R176). -/
def Raises (i : Instr) (s : State) (cause : FaultCause) (info : Option Nat) : Prop :=
  Completes i s fun t => FaultEntry s t cause (some (encode i)) info

/-- The bit that a sprite of the n bytes at `base`, drawn with its top left corner at (x0, y0), has at the cell (px, py);
sums are exact and nothing wraps (44_display R151, R153). -/
def spriteBit (m : Memory) (base n x0 y0 px py : Nat) : Bool :=
  decide (x0 ≤ px ∧ px < x0 + 8 ∧ y0 ≤ py ∧ py < y0 + n) && (m.read (base + (py - y0))).getLsbD (7 - (px - x0))

/-- The fault an instruction raises in its Execute step, and its info, as the table of 60_exceptions R170 lists them. -/
def tableFault (i : Instr) (s : State) : Option (FaultCause × Option Nat) :=
  match i with
  | .sys _ => some (.decodeError, none)
  | .ret => if s.SP.val = 0 then some (.stackUnderflow, some 0) else none
  | .call _ => if s.SP.val = 16 then some (.stackOverflow, some 16) else none
  | .drw _ _ n => if 0 < n.toNat ∧ 4096 ≤ s.I.toNat + n.toNat - 1 then some (.memBounds, some (max s.I.toNat 4096)) else none
  | .skp x | .sknp x => if 15 < (s.reg x).toNat then some (.keyIndex, some (s.reg x).toNat) else none
  | .addI x =>
    if 0xFFFF < s.I.toNat + (s.reg x).toNat then some (.indexOverflow, some (s.I.toNat + (s.reg x).toNat)) else none
  | .ldF x => if 15 < (s.reg x).toNat then some (.fontIndex, some (s.reg x).toNat) else none
  | .ldB _ => if 4096 ≤ s.I.toNat + 2 then some (.memBounds, some (max s.I.toNat 4096)) else none
  | .ldMemVx x | .ldVxMem x =>
    if 4096 ≤ s.I.toNat + x.val then some (.memBounds, some (max s.I.toNat 4096)) else none
  | .cls | .jp _ | .seImm _ _ | .sneImm _ _ | .seReg _ _ | .ldImm _ _ | .addImm _ _ | .ldReg _ _ => none
  | .orReg _ _ | .andReg _ _ | .xorReg _ _ | .addReg _ _ | .subReg _ _ | .shr _ _ | .subnReg _ _ | .shl _ _ => none
  | .sneReg _ _ | .ldI _ | .jpV0 _ | .rnd _ _ | .ldVxDT _ | .ldVxK _ | .ldDTVx _ | .ldSTVx _ => none

/-- V[r] is a register the instruction writes: its destination, VF where it writes a flag, and for FX65 every register up to
V[X] (10_state R20, R21, R34). -/
def destination (i : Instr) (r : RegId) : Prop :=
  match i with
  | .ldImm x _ | .addImm x _ | .ldReg x _ | .orReg x _ | .andReg x _ | .xorReg x _ | .rnd x _ | .ldVxDT x => r = x
  | .addReg x _ | .subReg x _ | .shr x _ | .subnReg x _ | .shl x _ => r = x ∨ r = 15
  | .drw _ _ _ => r = 15
  | .ldVxMem x => r ≤ x
  | .sys _ | .cls | .ret | .jp _ | .call _ | .seImm _ _ | .sneImm _ _ | .seReg _ _ | .sneReg _ _ | .ldI _ => False
  | .jpV0 _ | .skp _ | .sknp _ | .ldVxK _ | .ldDTVx _ | .ldSTVx _ | .addI _ | .ldF _ | .ldB _ | .ldMemVx _ => False

/-- The new pc of an instruction that raises no fault, as the table of 10_state R24 lists it. -/
def pcRule (i : Instr) (s t : State) : Prop :=
  match i with
  | .seImm _ _ | .sneImm _ _ | .seReg _ _ | .sneReg _ _ | .skp _ | .sknp _ => t.pc = s.pc + 2 ∨ t.pc = s.pc + 4
  | .jp nnn | .call nnn => t.pc.toNat = nnn.toNat
  | .jpV0 nnn => t.pc.toNat = nnn.toNat + (s.reg 0).toNat
  | .ret => ∀ (k : Nat) (hk : k < 16), s.SP.val = k + 1 → t.pc = s.stack[k]'hk + 2
  | .ldVxK _ => t.pc = s.pc
  | .sys _ | .cls | .ldImm _ _ | .addImm _ _ | .ldReg _ _ | .orReg _ _ | .andReg _ _ | .xorReg _ _ | .addReg _ _ | .subReg _ _
  | .shr _ _ | .subnReg _ _ | .shl _ _ | .ldI _ | .rnd _ _ | .drw _ _ _ | .ldVxDT _ | .ldDTVx _ | .ldSTVx _ | .addI _
  | .ldF _ | .ldB _ | .ldMemVx _ | .ldVxMem _ => t.pc = s.pc + 2

/-- The next step of `s` is a cycle that executes: a reset has happened, no other event is pending, the status is
Running. -/
def ReadyToCycle (s : State) : Prop := s.phase ≠ .unreset ∧ s.pending = [] ∧ s.status = .running

/-- The word at pc as the fetch combines it: mem[pc] * 256 + mem[pc+1] (20_memory R53, R56). -/
def WordAtPc (s : State) (op : Word) : Prop :=
  s.pc.toNat ≤ 0xFFE ∧ op.toNat = (s.mem.read s.pc.toNat).toNat * 256 + (s.mem.read (s.pc.toNat + 1)).toNat

/-- The whole cycles of FX15, FX18 and FX07: a timer loaded is already one lower at the end of its cycle, FX07 reads the
value before the tick, the other timer ticks too, and `sound_active` shows a sound timer that is not 0 (10_state R41,
60_exceptions R190). -/
def TimerCycles (x : RegId) (s : State) : Prop :=
  (WordAtPc s (encode (.ldDTVx x)) →
    ∃ t, step s = .next t ∧ t.DT.toNat = (s.reg x).toNat - 1 ∧ t.ST.toNat = s.ST.toNat - 1) ∧
  (WordAtPc s (encode (.ldSTVx x)) →
    ∃ t, step s = .next t ∧ t.ST.toNat = (s.reg x).toNat - 1 ∧ t.DT.toNat = s.DT.toNat - 1 ∧
      (t.soundActive = true ↔ (s.reg x).toNat > 1)) ∧
  (WordAtPc s (encode (.ldVxDT x)) →
    ∃ t, step s = .next t ∧ t.reg x = s.DT ∧ t.DT.toNat = s.DT.toNat - 1 ∧ t.ST.toNat = s.ST.toNat - 1)

end Sys2Proof.Machine

open Sys2Proof Sys2Proof.Machine

/-! ## Encoding -/

/-- No bit of an encoding is dropped: a well-formed instruction's word decodes to it, for all operands of all 35 rows. -/
def Obligations.DecodeInvertsEncode : Prop := ∀ i : Instr, i.wellFormed = true → decodeOp (encode i) = .ok i

/-- A word that decodes to an instruction is that instruction's word, and the instruction is well-formed. So the opcode in
a fault record, taken from the instruction, is the fetched one. -/
def Obligations.EncodeInvertsDecode : Prop :=
  ∀ (op : Word) (i : Instr), decodeOp op = .ok i → encode i = op ∧ i.wellFormed = true

/-- The words that are no instruction, and the words of SYS, are those of the table of R87. -/
def Obligations.RejectedWordsAreTheTableOfR87 : Prop :=
  ∀ op : Word,
    ((∃ r, decodeOp op = .reject r) ↔
      (op.toNat / 0x1000 = 0x5 ∧ op.toNat % 16 ≠ 0) ∨
      (op.toNat / 0x1000 = 0x8 ∧ op.toNat % 16 ∈ [0x8, 0x9, 0xA, 0xB, 0xC, 0xD, 0xF]) ∨
      (op.toNat / 0x1000 = 0x9 ∧ op.toNat % 16 ≠ 0) ∨
      (op.toNat / 0x1000 = 0xE ∧ op.toNat % 256 ∉ [0x9E, 0xA1]) ∨
      (op.toNat / 0x1000 = 0xF ∧ op.toNat % 256 ∉ [0x07, 0x0A, 0x15, 0x18, 0x1E, 0x29, 0x33, 0x55, 0x65])) ∧
    ((∃ nnn, decodeOp op = .ok (.sys nnn)) ↔ op.toNat / 0x1000 = 0 ∧ op.toNat ≠ 0x00E0 ∧ op.toNat ≠ 0x00EE)

/-- Nine words written out from R85's patterns decode to their instructions; 0x8128, which is no pattern of R85, is rejected
(R83, R87). -/
def Obligations.WrittenOutWordsDecode : Prop :=
  decodeOp 0x00E0 = .ok .cls ∧ decodeOp 0x2300 = .ok (.call 0x300) ∧ decodeOp 0x332A = .ok (.seImm 3 0x2A) ∧
    decodeOp 0x812E = .ok (.shl 1 2) ∧ decodeOp 0xC40F = .ok (.rnd 4 0x0F) ∧ decodeOp 0xD125 = .ok (.drw 1 2 5) ∧
    decodeOp 0xE5A1 = .ok (.sknp 5) ∧ decodeOp 0xF255 = .ok (.ldMemVx 2) ∧ decodeOp 0xF20A = .ok (.ldVxK 2) ∧
    decodeOp 0x8128 = .reject .undefinedFamily8

/-! ## Control flow -/

/-- R100: SYS always raises DecodeError with the opcode and pc; nothing else changes. -/
def Obligations.SysRaisesDecodeError : Prop :=
  ∀ (nnn : Addr12) (s : State),
    (nnn ≠ 0x0E0 → nnn ≠ 0x0EE → HasOpcode (.sys nnn) nnn.toNat) ∧ Raises (.sys nnn) s .decodeError none

/-- R101: RET pops the address of the CALL and continues 2 past it, or raises StackUnderflow. The sum is exact
for a stacked value that was a fetched pc (10_state R24), and the entry stays in the stack. -/
def Obligations.RetPopsOrUnderflows : Prop :=
  HasOpcode .ret 0x00EE ∧
  ∀ s : State,
    (s.SP.val = 0 → Raises .ret s .stackUnderflow (some 0)) ∧
    (∀ (k : Nat) (hk : k < 16), s.SP.val = k + 1 →
      Completes .ret s fun t =>
        t.SP.val = k ∧ t.pc = s.stack[k]'hk + 2 ∧
          ((s.stack[k]'hk).toNat ≤ 0xFFE → t.pc.toNat = (s.stack[k]'hk).toNat + 2) ∧
          t.stack = s.stack ∧ OnlyStackChanges s t)

/-- R102 and R104: JP assigns NNN, JP V0 assigns the exact sum NNN + V[0]; nothing else changes. -/
def Obligations.JumpsAssignPc : Prop :=
  ∀ (nnn : Addr12) (s : State),
    HasOpcode (.jp nnn) (0x1000 + nnn.toNat) ∧ HasOpcode (.jpV0 nnn) (0xB000 + nnn.toNat) ∧
    (Completes (.jp nnn) s fun t => t.pc.toNat = nnn.toNat ∧ OnlyPcChanges s t) ∧
    (Completes (.jpV0 nnn) s fun t => t.pc.toNat = nnn.toNat + (s.reg 0).toNat ∧ OnlyPcChanges s t)

/-- R103: CALL stores its own address at stack[SP], counts it and jumps, or raises StackOverflow with nothing pushed. -/
def Obligations.CallPushesOrOverflows : Prop :=
  ∀ (nnn : Addr12) (s : State),
    HasOpcode (.call nnn) (0x2000 + nnn.toNat) ∧
    (s.SP.val = 16 → Raises (.call nnn) s .stackOverflow (some 16)) ∧
    (s.SP.val < 16 → Completes (.call nnn) s fun t =>
      t.SP.val = s.SP.val + 1 ∧ t.pc.toNat = nnn.toNat ∧
        (∀ j : Fin 16, t.stack[j.val] = if j.val = s.SP.val then s.pc else s.stack[j.val]) ∧ OnlyStackChanges s t)

/-- R105: the stack holds the address of the CALL; whatever the callee does, if it leaves the stack as the CALL left it,
RET continues 2 past the CALL with the stack as deep as before. -/
def Obligations.ReturnContinuesAfterItsCall : Prop :=
  ∀ (nnn : Addr12) (s : State) (h : s.SP.val < 16), s.pc.toNat ≤ 0xFFE →
    Completes (.call nnn) s fun t =>
      t.stack[s.SP.val]'h = s.pc ∧ t.pc.toNat = nnn.toNat ∧ ∀ u : State, u.stack = t.stack → u.SP = t.SP →
        Completes .ret u fun v => v.pc.toNat = s.pc.toNat + 2 ∧ v.SP = s.SP

/-! ## Skips -/

/-- R110 to R113: the four register skips. -/
def Obligations.SkipsCompareAndSkip : Prop :=
  ∀ (x y : RegId) (nn : Byte) (s : State),
    HasOpcode (.seImm x nn) (0x3000 + 0x100 * x.val + nn.toNat) ∧
    HasOpcode (.sneImm x nn) (0x4000 + 0x100 * x.val + nn.toNat) ∧
    HasOpcode (.seReg x y) (0x5000 + 0x100 * x.val + 0x10 * y.val) ∧
    HasOpcode (.sneReg x y) (0x9000 + 0x100 * x.val + 0x10 * y.val) ∧
    SkipsIf (.seImm x nn) s (s.reg x = nn) ∧ SkipsIf (.sneImm x nn) s (s.reg x ≠ nn) ∧
    SkipsIf (.seReg x y) s (s.reg x = s.reg y) ∧ SkipsIf (.sneReg x y) s (s.reg x ≠ s.reg y)

/-! ## Loads and ALU -/

/-- R122 to R124: the loads and the immediate add, which write no flag. -/
def Obligations.LoadsAndImmediateAdd : Prop :=
  ∀ (x y : RegId) (nn : Byte) (s : State),
    HasOpcode (.ldImm x nn) (0x6000 + 0x100 * x.val + nn.toNat) ∧
    HasOpcode (.addImm x nn) (0x7000 + 0x100 * x.val + nn.toNat) ∧
    HasOpcode (.ldReg x y) (0x8000 + 0x100 * x.val + 0x10 * y.val) ∧
    WritesOneReg (.ldImm x nn) s x nn.toNat ∧
    WritesOneReg (.addImm x nn) s x (((s.reg x).toNat + nn.toNat) % 256) ∧
    WritesOneReg (.ldReg x y) s x (s.reg y).toNat

/-- R125 to R127: bitwise, 8 bits, no flag. -/
def Obligations.BitwiseOperations : Prop :=
  ∀ (x y : RegId) (s : State),
    HasOpcode (.orReg x y) (0x8001 + 0x100 * x.val + 0x10 * y.val) ∧
    HasOpcode (.andReg x y) (0x8002 + 0x100 * x.val + 0x10 * y.val) ∧
    HasOpcode (.xorReg x y) (0x8003 + 0x100 * x.val + 0x10 * y.val) ∧
    (∃ v : Nat, WritesOneReg (.orReg x y) s x v ∧
      ∀ j < 8, v.testBit j = ((s.reg x).toNat.testBit j || (s.reg y).toNat.testBit j)) ∧
    (∃ v : Nat, WritesOneReg (.andReg x y) s x v ∧
      ∀ j < 8, v.testBit j = ((s.reg x).toNat.testBit j && (s.reg y).toNat.testBit j)) ∧
    (∃ v : Nat, WritesOneReg (.xorReg x y) s x v ∧
      ∀ j < 8, v.testBit j = ((s.reg x).toNat.testBit j ^^ (s.reg y).toNat.testBit j))

/-- R128: the carry of the exact sum goes to VF before the wrapped sum goes to V[x]. -/
def Obligations.AddWritesCarryThenSum : Prop :=
  ∀ (x y : RegId) (s : State),
    HasOpcode (.addReg x y) (0x8004 + 0x100 * x.val + 0x10 * y.val) ∧
    WritesFlagThenResult (.addReg x y) s x (if (s.reg x).toNat + (s.reg y).toNat > 255 then 1 else 0)
      (((s.reg x).toNat + (s.reg y).toNat) % 256)

/-- R129 and R131: the not-borrow goes to VF before the wrapped difference goes to V[x]; equal operands give 1. -/
def Obligations.SubtractsWriteNotBorrowThenDifference : Prop :=
  ∀ (x y : RegId) (s : State),
    HasOpcode (.subReg x y) (0x8005 + 0x100 * x.val + 0x10 * y.val) ∧
    HasOpcode (.subnReg x y) (0x8007 + 0x100 * x.val + 0x10 * y.val) ∧
    WritesFlagThenResult (.subReg x y) s x (if (s.reg x).toNat ≥ (s.reg y).toNat then 1 else 0)
      (((s.reg x).toNat + 256 - (s.reg y).toNat) % 256) ∧
    WritesFlagThenResult (.subnReg x y) s x (if (s.reg y).toNat ≥ (s.reg x).toNat then 1 else 0)
      (((s.reg y).toNat + 256 - (s.reg x).toNat) % 256)

/-- R130 and R132: the bit shifted out of V[x] goes to VF before the shifted value goes to V[x], for every Y. -/
def Obligations.ShiftsWriteTheBitShiftedOut : Prop :=
  ∀ (x y : RegId) (s : State),
    HasOpcode (.shr x y) (0x8006 + 0x100 * x.val + 0x10 * y.val) ∧
    HasOpcode (.shl x y) (0x800E + 0x100 * x.val + 0x10 * y.val) ∧
    WritesFlagThenResult (.shr x y) s x ((s.reg x).toNat % 2) ((s.reg x).toNat / 2) ∧
    WritesFlagThenResult (.shl x y) s x ((s.reg x).toNat / 128) ((s.reg x).toNat * 2 % 256)

/-- R138 with the model's free draw (log 3): both masks are applied to V[x], whatever byte is drawn, and the next draw is
another one. -/
def Obligations.RandomByteIsMaskedIntoTheRegister : Prop :=
  ∀ (x : RegId) (nn : Byte) (s : State),
    HasOpcode (.rnd x nn) (0xC000 + 0x100 * x.val + nn.toNat) ∧
    Completes (.rnd x nn) s fun t =>
      (∀ j, (t.reg x).getLsbD j =
        ((s.reg x).getLsbD j && ((Config.rndIn s.rndDraws).getLsbD j && nn.getLsbD j))) ∧
      t.pc = s.pc + 2 ∧ t.rndDraws = s.rndDraws + 1 ∧ RegsKeptBut (· = x) s t ∧ t.I = s.I ∧ MemKept s t ∧
      StackKept s t ∧ TimersKept s t ∧ KeysKept s t ∧ DisplayKept s t ∧ StatusKept s t ∧ t.phase = s.phase ∧
      t.pending = s.pending

/-! ## Index and memory -/

/-- R140: NNN, zero-extended, to I. -/
def Obligations.LoadIndexImmediate : Prop :=
  ∀ (nnn : Addr12) (s : State),
    HasOpcode (.ldI nnn) (0xA000 + nnn.toNat) ∧
    Completes (.ldI nnn) s fun t => t.I.toNat = nnn.toNat ∧ t.pc = s.pc + 2 ∧ OnlyIndexChanges s t

/-- R141: the exact sum to I, or IndexOverflow when it does not fit 16 bits; VF is not written. -/
def Obligations.AddToIndexOrOverflow : Prop :=
  ∀ (x : RegId) (s : State),
    HasOpcode (.addI x) (0xF01E + 0x100 * x.val) ∧
    (s.I.toNat + (s.reg x).toNat > 0xFFFF →
      Raises (.addI x) s .indexOverflow (some (s.I.toNat + (s.reg x).toNat))) ∧
    (s.I.toNat + (s.reg x).toNat ≤ 0xFFFF →
      Completes (.addI x) s fun t =>
        t.I.toNat = s.I.toNat + (s.reg x).toNat ∧ t.pc = s.pc + 2 ∧ OnlyIndexChanges s t)

/-- R142: the address of the glyph of the digit V[x] to I, or FontIndex. -/
def Obligations.FontPointerOrFontIndex : Prop :=
  ∀ (x : RegId) (s : State),
    HasOpcode (.ldF x) (0xF029 + 0x100 * x.val) ∧
    ((s.reg x).toNat > 15 → Raises (.ldF x) s .fontIndex (some (s.reg x).toNat)) ∧
    ((s.reg x).toNat ≤ 15 →
      Completes (.ldF x) s fun t =>
        t.I.toNat = 0x050 + 5 * (s.reg x).toNat ∧ t.pc = s.pc + 2 ∧ OnlyIndexChanges s t)

/-- R143: the three decimal digits of V[x] at I, I+1, I+2, or MemBounds with no byte written. -/
def Obligations.BcdStoreOrMemBounds : Prop :=
  ∀ (x : RegId) (s : State), s.mem.wf = true →
    HasOpcode (.ldB x) (0xF033 + 0x100 * x.val) ∧
    (s.I.toNat + 2 ≥ 4096 → Raises (.ldB x) s .memBounds (some (max s.I.toNat 4096))) ∧
    (s.I.toNat + 2 < 4096 →
      Completes (.ldB x) s fun t =>
        (t.mem.read s.I.toNat).toNat = (s.reg x).toNat / 100 ∧
        (t.mem.read (s.I.toNat + 1)).toNat = (s.reg x).toNat / 10 % 10 ∧
        (t.mem.read (s.I.toNat + 2)).toNat = (s.reg x).toNat % 10 ∧
        t.pc = s.pc + 2 ∧ OnlyMemChanges s.I.toNat 3 s t)

/-- R144: V[0], ..., V[x] to I, ..., I+x, or MemBounds with no byte written; I stays. -/
def Obligations.RegisterDumpOrMemBounds : Prop :=
  ∀ (x : RegId) (s : State), s.mem.wf = true →
    HasOpcode (.ldMemVx x) (0xF055 + 0x100 * x.val) ∧
    (s.I.toNat + x.val ≥ 4096 → Raises (.ldMemVx x) s .memBounds (some (max s.I.toNat 4096))) ∧
    (s.I.toNat + x.val < 4096 →
      Completes (.ldMemVx x) s fun t =>
        (∀ j : RegId, j ≤ x → t.mem.read (s.I.toNat + j.val) = s.reg j) ∧
        t.pc = s.pc + 2 ∧ OnlyMemChanges s.I.toNat (x.val + 1) s t)

/-- R145: the bytes at I, ..., I+x to V[0], ..., V[x], or MemBounds with no register written; I stays. -/
def Obligations.RegisterLoadOrMemBounds : Prop :=
  ∀ (x : RegId) (s : State),
    HasOpcode (.ldVxMem x) (0xF065 + 0x100 * x.val) ∧
    (s.I.toNat + x.val ≥ 4096 → Raises (.ldVxMem x) s .memBounds (some (max s.I.toNat 4096))) ∧
    (s.I.toNat + x.val < 4096 →
      Completes (.ldVxMem x) s fun t =>
        (∀ j : RegId, j ≤ x → t.reg j = s.mem.read (s.I.toNat + j.val)) ∧
        t.pc = s.pc + 2 ∧ OnlyRegsChange (· ≤ x) s t)

/-! ## Display -/

/-- R150: every cell 0, dirty set, also when nothing was lit. -/
def Obligations.ClearScreen : Prop :=
  HasOpcode .cls 0x00E0 ∧
  ∀ s : State, Completes .cls s fun t =>
    (∀ j, j < 2048 → t.fb.cell j = false) ∧ t.dirty = true ∧ t.pc = s.pc + 2 ∧
      RegsKept s t ∧ t.I = s.I ∧ MemKept s t ∧ StackKept s t ∧ TimersKept s t ∧ KeysKept s t ∧ StatusKept s t ∧
      HostSideKept s t

/-- R151 with the policy of R153: DRW inverts exactly the cells under a 1 bit of the sprite, never wraps, and VF says
whether one of them was lit; it faults when a row of the sprite is outside memory. -/
def Obligations.DrawInvertsTheCellsUnderTheSprite : Prop :=
  ∀ (x y : RegId) (n : Nibble) (s : State),
    HasOpcode (.drw x y n) (0xD000 + 0x100 * x.val + 0x10 * y.val + n.toNat) ∧
    (n.toNat > 0 ∧ s.I.toNat + n.toNat - 1 ≥ 4096 →
      Raises (.drw x y n) s .memBounds (some (max s.I.toNat 4096))) ∧
    (¬ (n.toNat > 0 ∧ s.I.toNat + n.toNat - 1 ≥ 4096) →
      Completes (.drw x y n) s fun t =>
        (∀ px py, px < 64 → py < 32 →
          t.fb.cell (py * 64 + px) =
            (s.fb.cell (py * 64 + px) ^^
              spriteBit s.mem s.I.toNat n.toNat (s.reg x).toNat (s.reg y).toNat px py)) ∧
        ((∃ px py, px < 64 ∧ py < 32 ∧ s.fb.cell (py * 64 + px) = true ∧
            spriteBit s.mem s.I.toNat n.toNat (s.reg x).toNat (s.reg y).toNat px py = true) → t.reg 15 = 1) ∧
        ((¬ ∃ px py, px < 64 ∧ py < 32 ∧ s.fb.cell (py * 64 + px) = true ∧
            spriteBit s.mem s.I.toNat n.toNat (s.reg x).toNat (s.reg y).toNat px py = true) → t.reg 15 = 0) ∧
        t.dirty = true ∧ t.pc = s.pc + 2 ∧ RegsKeptBut (· = 15) s t ∧ t.I = s.I ∧ MemKept s t ∧ StackKept s t ∧
        TimersKept s t ∧ KeysKept s t ∧ StatusKept s t ∧ HostSideKept s t)

/-- S4 of 95_test_vectors, a consequence of R151: drawing a sprite twice at one place brings every cell back; on a
cleared screen the first draw does not collide, and the second does if a bit of the sprite shows. -/
def Obligations.SecondDrawUndoesTheFirst : Prop :=
  ∀ (x y : RegId) (n : Nibble) (s : State), x ≠ 15 → y ≠ 15 → s.I.toNat + n.toNat ≤ 4096 →
    Completes (.drw x y n) s fun t => Completes (.drw x y n) t fun u =>
      u.fb = s.fb ∧
      (s.fb = Framebuffer.clear → t.reg 15 = 0 ∧
        ((∃ px py, px < 64 ∧ py < 32 ∧
          spriteBit s.mem s.I.toNat n.toNat (s.reg x).toNat (s.reg y).toNat px py = true) → u.reg 15 = 1))

/-! ## Keys and timers -/

/-- R160 and R161: skip on the key V[x] pressed or released, or KeyIndex. -/
def Obligations.KeySkipsOrKeyIndex : Prop :=
  ∀ (x : RegId) (s : State),
    HasOpcode (.skp x) (0xE09E + 0x100 * x.val) ∧ HasOpcode (.sknp x) (0xE0A1 + 0x100 * x.val) ∧
    ((s.reg x).toNat > 15 →
      Raises (.skp x) s .keyIndex (some (s.reg x).toNat) ∧ Raises (.sknp x) s .keyIndex (some (s.reg x).toNat)) ∧
    ((s.reg x).toNat ≤ 15 →
      SkipsIf (.skp x) s (s.keys.getLsbD (s.reg x).toNat = true) ∧
      SkipsIf (.sknp x) s (s.keys.getLsbD (s.reg x).toNat = false))

/-- R162: FX0A records its target and waits; pc, V[x] and everything else stay, its cycle does not tick, later cycles change
nothing, and neither a held key (D16) nor the taking of a frame ends the wait. -/
def Obligations.KeyReadWaits : Prop :=
  ∀ (x : RegId) (s : State),
    HasOpcode (.ldVxK x) (0xF00A + 0x100 * x.val) ∧
    (Completes (.ldVxK x) s fun t =>
      t.keyTarget = x ∧ t.status = .awaitingKey ∧ t.pc = s.pc ∧ t.fault = s.fault ∧ RegsKept s t ∧ t.I = s.I ∧
      MemKept s t ∧ StackKept s t ∧ TimersKept s t ∧ t.keys = s.keys ∧ DisplayKept s t ∧ HostSideKept s t) ∧
    (ReadyToCycle s → WordAtPc s (encode (.ldVxK x)) →
      ∃ t, step s = .next t ∧ t.status = .awaitingKey ∧ t.keyTarget = x ∧ t.pc = s.pc ∧ RegsKept s t ∧ TimersKept s t ∧
        applyEvent .cycle t = .next t ∧
        (∀ k, ∃ u, applyEvent (.setKeys k) t = .next u ∧ u.status = .awaitingKey ∧ u.pc = s.pc ∧ u.keys = k) ∧
        ∃ u, applyEvent .consumeDirty t = .next u ∧ u.status = .awaitingKey ∧ u.pc = s.pc ∧ u.dirty = false)

/-- R164 to R166: the moves between V[x] and the timers. What is left of them after the tick of their cycle is the spec's
own inference, "[derived: from 10_state.md rule R40 and rule R41]". -/
def Obligations.TimerMoves : Prop :=
  ∀ (x : RegId) (s : State),
    HasOpcode (.ldVxDT x) (0xF007 + 0x100 * x.val) ∧ HasOpcode (.ldDTVx x) (0xF015 + 0x100 * x.val) ∧
    HasOpcode (.ldSTVx x) (0xF018 + 0x100 * x.val) ∧
    WritesOneReg (.ldVxDT x) s x s.DT.toNat ∧
    (Completes (.ldDTVx x) s fun t =>
      t.DT = s.reg x ∧ t.ST = s.ST ∧ t.pc = s.pc + 2 ∧ RegsKept s t ∧ t.I = s.I ∧ MemKept s t ∧ StackKept s t ∧
      KeysKept s t ∧ DisplayKept s t ∧ StatusKept s t ∧ HostSideKept s t) ∧
    (Completes (.ldSTVx x) s fun t =>
      t.ST = s.reg x ∧ t.DT = s.DT ∧ t.pc = s.pc + 2 ∧ RegsKept s t ∧ t.I = s.I ∧ MemKept s t ∧ StackKept s t ∧
      KeysKept s t ∧ DisplayKept s t ∧ StatusKept s t ∧ HostSideKept s t) ∧
    (ReadyToCycle s → TimerCycles x s)

/-- R41: a cycle whose word decodes and that leaves the status Running ends with both timers one below what Execute left, a
timer at 0 staying 0; a cycle of any kind that does not leave it Running, be it a fault in the fetch, in Decode or in Execute,
an FX0A, or a cycle while AwaitingKey or Faulted, leaves both timers as they were; and a cycle leaves the status Running only
if its word decoded, so there is no other cycle. That a cycle closes the boot window is the model's (log 4). -/
def Obligations.TimersTickAfterExecute : Prop :=
  (∀ (s : State) (op : Word) (i : Instr) (t : State), ReadyToCycle s → WordAtPc s op → decodeOp op = .ok i →
    exec i { s with phase := .executing } = .next t →
    ∃ u, step s = .next u ∧
      (t.status = .running → u.DT.toNat = t.DT.toNat - 1 ∧ u.ST.toNat = t.ST.toNat - 1) ∧
      (t.status ≠ .running → TimersKept t u)) ∧
  (∀ s t : State, applyEvent .cycle s = .next t →
    (t.status ≠ .running → TimersKept s t) ∧
    (t.status = .running → s.status = .running ∧ ∃ op i, s.fetch = .ok op ∧ decodeOp op = .ok i))

/-! ## The cycle -/

/-- A step runs the decoded instruction: when the word at pc decodes to `i`, the step is exec of `i` on the state with the
boot window closed (log 4), followed by the timer tick if the status is then Running. -/
def Obligations.StepRunsTheDecodedInstruction : Prop :=
  ∀ (s : State) (op : Word) (i : Instr), ReadyToCycle s → WordAtPc s op → decodeOp op = .ok i →
    (∀ t, exec i { s with phase := .executing } = .next t → t.status = .running →
      step s = .next { t with DT := tickDown t.DT, ST := tickDown t.ST }) ∧
    (∀ t, exec i { s with phase := .executing } = .next t → t.status ≠ .running → step s = .next t)

/-- R84 and R179: a fetched word that is no instruction raises DecodeError with the word and the pc; nothing else
changes but for the boot window, which the cycle closes (log 4). -/
def Obligations.UndefinedWordRaisesDecodeError : Prop :=
  ∀ (s : State) (op : Word) (r : DecodeReject), ReadyToCycle s → WordAtPc s op → decodeOp op = .reject r →
    ∃ t, step s = .next t ∧ FaultEntry { s with phase := .executing } t .decodeError (some op) none

/-- R58: a fetch succeeds exactly when pc <= 0xFFE and is big-endian; else the step raises FetchBounds with the first byte
address out of range, 4096 for pc = 0xFFF and pc above it (the boot window is closed by the cycle, log 4). -/
def Obligations.FetchSucceedsOrRaisesFetchBounds : Prop :=
  (∀ s : State, s.pc.toNat ≤ 0xFFE ↔ ∃ op, s.fetch = .ok op) ∧
  (∀ (s : State) (op : Word), s.fetch = .ok op → WordAtPc s op) ∧
  (∀ s : State, ReadyToCycle s → s.pc.toNat > 0xFFE →
    ∃ t, step s = .next t ∧
      FaultEntry { s with phase := .executing } t .fetchBounds none
        (some (if s.pc.toNat = 0xFFF then 4096 else s.pc.toNat)))

/-- R42: a cycle while AwaitingKey or Faulted changes nothing. -/
def Obligations.CycleWhileWaitingOrFaultedChangesNothing : Prop :=
  ∀ s : State, s.phase ≠ .unreset → s.status ≠ .running → applyEvent .cycle s = .next s

/-- R176 and R181 over whole cycles: whatever raises it, a fault leaves every element of the state as it was but for the
status and the record, whose pc is that of the faulting instruction and whose opcode is the fetched one, or none where
none was fetched; and there is no tick. The cycle has closed the boot window (log 4). -/
def Obligations.FaultingCycleHasNoOtherEffect : Prop :=
  ∀ s t : State, s.phase ≠ .unreset → s.status = .running → applyEvent .cycle s = .next t → t.status = .faulted →
    ∃ (c : FaultCause) (n : Option Nat),
      FaultEntry { s with phase := .executing } t c (match s.fetch with | .ok op => some op | .error _ => none) n

/-- R170: an instruction raises in its Execute step exactly the fault the table lists for it, under exactly the condition
and with exactly the info listed; otherwise it completes with no fault. -/
def Obligations.FaultsAreExactlyThoseOfTheTable : Prop :=
  ∀ (i : Instr) (s : State), s.status = .running →
    (∀ c n, tableFault i s = some (c, n) → Raises i s c n) ∧
    (tableFault i s = none → Completes i s fun t => t.status ≠ .faulted ∧ t.fault = s.fault)

/-- After a reset every cycle answers a next state, in every status: no instruction stops the machine from answering. -/
def Obligations.EveryCycleAnswersANextState : Prop :=
  ∀ s : State, s.phase ≠ .unreset → ∃ t, applyEvent .cycle s = .next t

/-! ## Whole-machine rules over all instructions -/

/-- R20, R22, R24, R25, R27, R29 to R33, R35, R36: each element of the state is written only by the instructions its rule
names, the status and the fault record also by the entry of a fault. Of the model's own part of the state, `phase` (log 4) and
`pending` (log 2) are written by no instruction and `rndDraws` (log 3) only by RND; these clauses are the model's choice. -/
def Obligations.EachElementHasOnlyItsOwnWriters : Prop :=
  ∀ (i : Instr) (s t : State), exec i s = .next t →
    (¬ DisplayKept s t → i = .cls ∨ ∃ x y n, i = .drw x y n) ∧
    (¬ StackKept s t → i = .ret ∨ ∃ nnn, i = .call nnn) ∧
    (¬ MemKept s t → ∃ x, i = .ldB x ∨ i = .ldMemVx x) ∧
    (t.I ≠ s.I → (∃ nnn, i = .ldI nnn) ∨ ∃ x, i = .addI x ∨ i = .ldF x) ∧
    (t.DT ≠ s.DT → ∃ x, i = .ldDTVx x) ∧ (t.ST ≠ s.ST → ∃ x, i = .ldSTVx x) ∧
    (t.keyTarget ≠ s.keyTarget → ∃ x, i = .ldVxK x) ∧ t.keys = s.keys ∧
    (∀ r, t.reg r ≠ s.reg r → destination i r) ∧
    (tableFault i s = none → pcRule i s t) ∧ (tableFault i s ≠ none → t.pc = s.pc) ∧
    (t.status ≠ s.status → (∃ x, i = .ldVxK x) ∨ tableFault i s ≠ none) ∧
    (t.fault ≠ s.fault → tableFault i s ≠ none) ∧
    t.phase = s.phase ∧ t.pending = s.pending ∧ (t.rndDraws ≠ s.rndDraws → ∃ x nn, i = .rnd x nn)

/-- R34: VF changes only by the six instructions that write a flag or by an instruction that names V[15] (or, for FX65,
all registers up to V[15]) as its destination. -/
def Obligations.FlagRegisterHasOnlyItsOwnWriters : Prop :=
  ∀ (i : Instr) (s t : State), exec i s = .next t → t.reg 15 ≠ s.reg 15 →
    (∃ x y, i = .addReg x y ∨ i = .subReg x y ∨ i = .subnReg x y ∨ i = .shr x y ∨ i = .shl x y ∨ ∃ n, i = .drw x y n) ∨
    (∃ nn, i = .ldImm 15 nn ∨ i = .addImm 15 nn ∨ i = .rnd 15 nn) ∨
    (∃ y, i = .ldReg 15 y ∨ i = .orReg 15 y ∨ i = .andReg 15 y ∨ i = .xorReg 15 y) ∨
    i = .ldVxDT 15 ∨ i = .ldVxMem 15

/-- R35: the transitions of the status, over every host event. -/
def Obligations.StatusTransitions : Prop :=
  ∀ (e : HostEvent) (s t : State), applyEvent e s = .next t →
    (s.status = .running → t.status ≠ .running → e = .cycle) ∧
    (s.status = .running → t.status = .awaitingKey →
      ∃ op x, s.fetch = .ok op ∧ decodeOp op = .ok (.ldVxK x) ∧ t.keyTarget = x) ∧
    (s.status = .awaitingKey → t.status ≠ .faulted) ∧
    (s.status = .awaitingKey → t.status = .running → e = .reset ∨ ∃ k, e = .keyPress k) ∧
    (s.status = .faulted → t.status ≠ .faulted → e = .reset ∧ t.status = .running) ∧
    (s.status = .faulted → t.status = .faulted → t.fault = s.fault)

/-- R70: the bytes that FX55 stores are what a fetch at their address reads, with nothing in between. That V[0] is the high
byte is the spec's own inference in R53, "[derived: from rule R56 and 43_index_memory.md rule R144]". -/
def Obligations.StoredBytesAreFetched : Prop :=
  ∀ (x : RegId) (s : State), s.mem.wf = true → 1 ≤ x.val → s.I.toNat + x.val < 4096 →
    Completes (.ldMemVx x) s fun t =>
      ∃ op : Word, State.fetch { t with pc := s.I } = .ok op ∧ op.toNat = (s.reg 0).toNat * 256 + (s.reg 1).toNat

/-! ## The host's events -/

/-- R200 with the values of R38: `reset` in any state, whatever its status, gives every element of the spec's state its
reset value; no other event leads out of Faulted. -/
def Obligations.ResetGivesEveryElementItsResetValue : Prop :=
  (∀ s : State, ∃ t, applyEvent .reset s = .next t ∧
    (∀ r, t.reg r = 0) ∧ t.I = 0 ∧ t.pc = 0x200 ∧ (∀ j : Fin 16, t.stack[j.val] = 0) ∧ t.SP = 0 ∧ t.DT = 0 ∧ t.ST = 0 ∧
    (∀ a, a < 4096 → (a < 0x050 ∨ 0x0A0 ≤ a) → t.mem.read a = 0) ∧
    (∀ j, j < 80 → t.mem.read (0x050 + j) = font.getD j 0) ∧
    (∀ j : Fin 16, t.keys.getLsbD j.val = false) ∧ t.keyTarget = 0 ∧ (∀ j, j < 2048 → t.fb.cell j = false) ∧
    t.dirty = false ∧ t.status = .running ∧ t.fault = none) ∧
  (∀ (e : HostEvent) (s t : State), s.status = .faulted → applyEvent e s = .next t → t.status ≠ .faulted → e = .reset)

/-- R201: before the first reset every event but `reset` is refused. -/
def Obligations.EventsBeforeTheFirstResetAreRefused : Prop :=
  ∀ (e : HostEvent) (s : State), s.phase = .unreset → e ≠ .reset → applyEvent e s = .refused .eventBeforeReset

/-- R204: in the boot window, which `reset` opens and a cycle closes, the bytes go verbatim to 0x200 onward, and too long
a ROM changes nothing and is reported; outside the boot window the event is refused. How the window is held, what a
refusal is in the model and how the report is made are the model's (logs 4, 5, 19). -/
def Obligations.LoadRomCopiesOrRefuses : Prop :=
  (∀ (bytes : List Byte) (s : State), s.phase = .boot → s.mem.wf = true → bytes.length ≤ 3584 →
    ∃ t, applyEvent (.loadRom bytes) s = .next t ∧
      (∀ (j : Nat) (h : j < bytes.length), t.mem.read (0x200 + j) = bytes[j]) ∧
      OnlyMemChanges 0x200 bytes.length s t ∧ t.pc = s.pc) ∧
  (∀ (bytes : List Byte) (s : State), s.phase = .boot → 3584 < bytes.length →
    applyEvent (.loadRom bytes) s = .next s ∧ hostReply (.loadRom bytes) s = .romTooLarge) ∧
  (∀ (bytes : List Byte) (s : State), s.phase ≠ .boot →
    (∃ r, applyEvent (.loadRom bytes) s = .refused r) ∧
    (s.phase = .executing → applyEvent (.loadRom bytes) s = .refused .loadRomOutsideBootWindow)) ∧
  (∀ s t : State, applyEvent .reset s = .next t → t.phase = .boot) ∧
  (∀ s t : State, s.status = .running → applyEvent .cycle s = .next t → t.phase = .executing)

/-- R163: `key_press` completes a pending FX0A, without a tick and without touching the key matrix; otherwise it changes
nothing. -/
def Obligations.KeyPressCompletesTheWait : Prop :=
  ∀ (idx : Nibble) (s : State), s.phase ≠ .unreset →
    (s.status = .awaitingKey →
      ∃ t, applyEvent (.keyPress idx) s = .next t ∧ (t.reg s.keyTarget).toNat = idx.toNat ∧ t.pc = s.pc + 2 ∧
        t.status = .running ∧ t.fault = s.fault ∧ RegsKeptBut (· = s.keyTarget) s t ∧ t.I = s.I ∧ MemKept s t ∧
        StackKept s t ∧ TimersKept s t ∧ KeysKept s t ∧ DisplayKept s t ∧ HostSideKept s t) ∧
    (s.status ≠ .awaitingKey → applyEvent (.keyPress idx) s = .next s)

/-- R193: `set_keys` overwrites every key state and nothing else, in every status. -/
def Obligations.SetKeysOverwritesTheKeyMatrix : Prop :=
  ∀ (k : BitVec 16) (s : State), s.phase ≠ .unreset →
    ∃ t, applyEvent (.setKeys k) s = .next t ∧ (∀ j : Fin 16, t.keys.getLsbD j.val = k.getLsbD j.val) ∧
      t.keyTarget = s.keyTarget ∧ t.pc = s.pc ∧ RegsKept s t ∧ t.I = s.I ∧ MemKept s t ∧ StackKept s t ∧
      TimersKept s t ∧ DisplayKept s t ∧ StatusKept s t ∧ HostSideKept s t

/-- R192: `consume_dirty` hands over the framebuffer and clears the flag when it is set, and is a no-op that delivers no
frame when it is not; nothing else changes, in every status. That the frame is the value of a function of the event and the
state before it, not a field of the next state, is the model's choice (log 19). -/
def Obligations.ConsumeDirtyTakesTheFrameOnce : Prop :=
  ∀ s : State, s.phase ≠ .unreset →
    (s.dirty = true → hostReply .consumeDirty s = .frame s.fb) ∧
    (s.dirty = false → hostReply .consumeDirty s = .noFrame ∧ applyEvent .consumeDirty s = .next s) ∧
    ∃ t, applyEvent .consumeDirty s = .next t ∧ t.dirty = false ∧ t.fb = s.fb ∧ t.pc = s.pc ∧
      RegsKept s t ∧ t.I = s.I ∧ MemKept s t ∧ StackKept s t ∧ TimersKept s t ∧ KeysKept s t ∧ StatusKept s t ∧
      HostSideKept s t ∧ hostReply .consumeDirty t = .noFrame

/-- A step applies the oldest pending event and leaves the others pending, whatever the event does (log 2). -/
def Obligations.StepAppliesTheOldestPendingEvent : Prop :=
  ∀ (s t : State) (e : HostEvent) (rest : List HostEvent), s.pending = e :: rest → step s = .next t →
    t.pending = rest ∧ applyEvent e { s with pending := rest } = .next t

/-! ## Memory and the invariant -/

/-- Two canonical memories with the same contents are the same list (log 6). -/
def Obligations.EqualContentsAreEqualMemories : Prop :=
  ∀ m m' : Memory, m.wf = true → m'.wf = true → (∀ a, a < 4096 → m.read a = m'.read a) → m = m'

/-- The probe puts its word where the next step fetches (log 15). -/
def Obligations.ProbedWordIsFetched : Prop :=
  ∀ (s : State) (w : Nat), s.mem.wf = true → w < 65536 →
    ReadyToCycle (s.withFetchWord 16 w) ∧ (s.withFetchWord 16 w).fetch = .ok (BitVec.ofNat 16 w)

/-- The invariant holds after reset. -/
def Obligations.ResetStateSatisfiesTheInvariant : Prop := Inv State.reset

/-- Every step, whichever host event it applies, keeps the invariant, from every state that satisfies it. -/
def Obligations.StepKeepsTheInvariant : Prop := ∀ s t : State, Inv s → step s = .next t → Inv t
end

