-- ==== Sys2Proof/Laws/Decode.lean ====
section
/-! SUPPORT. The fields of an opcode and the formats of the encoder as numbers (spec 00_scope R11, 30_encoding R81): with
these, statements about words are linear arithmetic. -/

namespace Sys2Proof

theorem opTop_toNat (op : Word) : (opTop op).toNat = op.toNat / 0x1000 := by
  have := op.isLt
  simp only [opTop, BitVec.extractLsb'_toNat, Nat.shiftRight_eq_div_pow]; omega

theorem opX_val (op : Word) : (opX op).val = op.toNat / 0x100 % 16 := by
  simp only [opX, BitVec.val_toFin, BitVec.extractLsb'_toNat, Nat.shiftRight_eq_div_pow]

theorem opY_val (op : Word) : (opY op).val = op.toNat / 0x10 % 16 := by
  simp only [opY, BitVec.val_toFin, BitVec.extractLsb'_toNat, Nat.shiftRight_eq_div_pow]

theorem opN_toNat (op : Word) : (opN op).toNat = op.toNat % 16 := by simp [opN]

theorem opNN_toNat (op : Word) : (opNN op).toNat = op.toNat % 256 := by simp [opNN]

theorem opNNN_toNat (op : Word) : (opNNN op).toNat = op.toNat % 4096 := by simp [opNNN]

theorem encA_toNat (t : Nibble) (nnn : Addr12) : (encA t nnn).toNat = t.toNat * 0x1000 + nnn.toNat := by
  have := t.isLt; have := nnn.isLt
  simp only [encA, BitVec.toNat_ofNat]; omega

theorem encXI_toNat (t : Nibble) (x : RegId) (nn : Byte) :
    (encXI t x nn).toNat = t.toNat * 0x1000 + x.val * 0x100 + nn.toNat := by
  have := t.isLt; have := x.isLt; have := nn.isLt
  simp only [encXI, BitVec.toNat_ofNat]; omega

theorem encXY_toNat (t : Nibble) (x y : RegId) (n : Nibble) :
    (encXY t x y n).toNat = t.toNat * 0x1000 + x.val * 0x100 + y.val * 0x10 + n.toNat := by
  have := t.isLt; have := x.isLt; have := y.isLt; have := n.isLt
  simp only [encXY, BitVec.toNat_ofNat]; omega

theorem wordOfBytes_toNat (hi lo : Byte) : (wordOfBytes hi lo).toNat = hi.toNat * 256 + lo.toNat := by
  have := hi.isLt; have := lo.isLt
  simp only [wordOfBytes, BitVec.toNat_ofNat]; omega

/-- The two bytes of a word, combined as the fetch combines them, are the word (20_memory R53). -/
theorem wordOfBytes_split (op : Word) : wordOfBytes (opHigh op) (opLow op) = op := by
  apply BitVec.eq_of_toNat_eq
  have := op.isLt
  rw [wordOfBytes_toNat]
  simp only [opHigh, opLow, BitVec.extractLsb'_toNat, Nat.shiftRight_eq_div_pow]; omega

/-! ## The fields of a word built by a format, and the word built from its fields -/

theorem fields_encA (t : Nibble) (nnn : Addr12) : opTop (encA t nnn) = t ∧ opNNN (encA t nnn) = nnn := by
  have := t.isLt; have := nnn.isLt
  refine ⟨BitVec.eq_of_toNat_eq ?_, BitVec.eq_of_toNat_eq ?_⟩
  · rw [opTop_toNat, encA_toNat]; omega
  · rw [opNNN_toNat, encA_toNat]; omega

theorem fields_encXI (t : Nibble) (x : RegId) (nn : Byte) :
    opTop (encXI t x nn) = t ∧ opX (encXI t x nn) = x ∧ opNN (encXI t x nn) = nn := by
  have := t.isLt; have := x.isLt; have := nn.isLt
  refine ⟨BitVec.eq_of_toNat_eq ?_, Fin.ext ?_, BitVec.eq_of_toNat_eq ?_⟩
  · rw [opTop_toNat, encXI_toNat]; omega
  · rw [opX_val, encXI_toNat]; omega
  · rw [opNN_toNat, encXI_toNat]; omega

theorem fields_encXY (t : Nibble) (x y : RegId) (n : Nibble) :
    opTop (encXY t x y n) = t ∧ opX (encXY t x y n) = x ∧ opY (encXY t x y n) = y ∧ opN (encXY t x y n) = n := by
  have := t.isLt; have := x.isLt; have := y.isLt; have := n.isLt
  refine ⟨BitVec.eq_of_toNat_eq ?_, Fin.ext ?_, Fin.ext ?_, BitVec.eq_of_toNat_eq ?_⟩
  · rw [opTop_toNat, encXY_toNat]; omega
  · rw [opX_val, encXY_toNat]; omega
  · rw [opY_val, encXY_toNat]; omega
  · rw [opN_toNat, encXY_toNat]; omega

theorem encA_fields (op : Word) : encA (opTop op) (opNNN op) = op := by
  have := op.isLt
  apply BitVec.eq_of_toNat_eq
  rw [encA_toNat, opTop_toNat, opNNN_toNat]; omega

theorem encXI_fields (op : Word) : encXI (opTop op) (opX op) (opNN op) = op := by
  have := op.isLt
  apply BitVec.eq_of_toNat_eq
  rw [encXI_toNat, opTop_toNat, opX_val, opNN_toNat]; omega

theorem encXY_fields (op : Word) : encXY (opTop op) (opX op) (opY op) (opN op) = op := by
  have := op.isLt
  apply BitVec.eq_of_toNat_eq
  rw [encXY_toNat, opTop_toNat, opX_val, opY_val, opN_toNat]; omega

/-! ## The masks of the opcode map (30_encoding R85) -/

theorem mask_top (op : Word) : (op &&& (0xF000 : Word)).toNat = op.toNat / 0x1000 * 0x1000 := by
  have h : op &&& (0xF000 : Word) = (op >>> 12) <<< 12 := by
    apply BitVec.eq_of_getLsbD_eq
    intro i hi
    have : i < 16 := hi
    interval_cases i <;> simp
  rw [h, BitVec.toNat_shiftLeft, BitVec.toNat_ushiftRight, Nat.shiftLeft_eq, Nat.shiftRight_eq_div_pow]
  have := op.isLt
  omega

theorem mask_nibble (op : Word) : (op &&& (0x000F : Word)).toNat = op.toNat % 16 := by
  rw [BitVec.toNat_and]; exact Nat.and_two_pow_sub_one_eq_mod op.toNat 4

theorem mask_byte (op : Word) : (op &&& (0x00FF : Word)).toNat = op.toNat % 256 := by
  rw [BitVec.toNat_and]; exact Nat.and_two_pow_sub_one_eq_mod op.toNat 8

/-- A word whose top nibble is t selects the rows with mask 0xF000 and match t000. -/
theorem mask_F000_eq {op : Word} {t : Nat} (h : op.toNat / 0x1000 = t) :
    op &&& (0xF000 : Word) = BitVec.ofNat 16 (t * 0x1000) := by
  apply BitVec.eq_of_toNat_eq
  have := op.isLt
  rw [mask_top, h, BitVec.toNat_ofNat]; omega

/-- A word with top nibble t and low nibble n selects the rows with mask 0xF00F and match t00n. -/
theorem mask_F00F_eq {op : Word} {t n : Nat} (ht : op.toNat / 0x1000 = t) (hn : op.toNat % 16 = n) :
    op &&& (0xF00F : Word) = BitVec.ofNat 16 (t * 0x1000) ||| BitVec.ofNat 16 n := by
  have h : (0xF00F : Word) = 0xF000 ||| 0x000F := by decide
  have hl : op &&& (0x000F : Word) = BitVec.ofNat 16 n := by
    apply BitVec.eq_of_toNat_eq
    rw [mask_nibble, hn, BitVec.toNat_ofNat]; omega
  rw [h, BitVec.and_or_distrib_left, mask_F000_eq ht, hl]

/-- A word with top nibble t and low byte n selects the rows with mask 0xF0FF and match t0nn. -/
theorem mask_F0FF_eq {op : Word} {t n : Nat} (ht : op.toNat / 0x1000 = t) (hn : op.toNat % 256 = n) :
    op &&& (0xF0FF : Word) = BitVec.ofNat 16 (t * 0x1000) ||| BitVec.ofNat 16 n := by
  have h : (0xF0FF : Word) = 0xF000 ||| 0x00FF := by decide
  have hl : op &&& (0x00FF : Word) = BitVec.ofNat 16 n := by
    apply BitVec.eq_of_toNat_eq
    rw [mask_byte, hn, BitVec.toNat_ofNat]; omega
  rw [h, BitVec.and_or_distrib_left, mask_F000_eq ht, hl]

end Sys2Proof
end

