-- ==== Sys2Proof/Laws/Memory.lean ====
section
/-! SUPPORT. The laws of the memory: what a read gives after a write, and that every write keeps the canonical form. -/

namespace Sys2Proof.Machine

@[simp] theorem Memory.read_nil (a : Nat) : Memory.read [] a = memInitial a := rfl

@[simp] theorem Memory.read_cons (k a : Nat) (b : Byte) (m : Memory) :
    Memory.read ((k, b) :: m) a = if k = a then b else Memory.read m a := rfl

@[simp] theorem Memory.wfFrom_nil (lo : Nat) : Memory.wfFrom lo [] = true := rfl

theorem Memory.wfFrom_cons (lo k : Nat) (b : Byte) (m : Memory) :
    Memory.wfFrom lo ((k, b) :: m) = true ↔
      lo ≤ k ∧ k < Config.memSize ∧ b ≠ memInitial k ∧ Memory.wfFrom (k + 1) m = true := by
  simp [Memory.wfFrom, and_assoc]

theorem Memory.wfFrom_mono {lo lo' : Nat} {m : Memory} (h : Memory.wfFrom lo m = true) (hl : lo' ≤ lo) :
    Memory.wfFrom lo' m = true := by
  cases m with
  | nil => rfl
  | cons c m =>
    rw [Memory.wfFrom_cons] at h ⊢
    exact ⟨hl.trans h.1, h.2⟩

/-- Below its first cell a canonical memory reads as after reset. -/
theorem Memory.read_of_wfFrom {lo a : Nat} {m : Memory} (h : Memory.wfFrom lo m = true) (ha : a < lo) :
    m.read a = memInitial a := by
  induction m generalizing lo with
  | nil => rfl
  | cons c m ih =>
    rw [Memory.wfFrom_cons] at h
    rw [Memory.read_cons, if_neg (by omega)]
    exact ih h.2.2.2 (by omega)

theorem Memory.wfFrom_consCell {lo a : Nat} {b : Byte} {m : Memory} (h : Memory.wfFrom (a + 1) m = true) (hl : lo ≤ a)
    (ha : a < Config.memSize) : Memory.wfFrom lo (Memory.consCell a b m) = true := by
  unfold Memory.consCell
  split
  · exact Memory.wfFrom_mono h (by omega)
  · rw [Memory.wfFrom_cons]; exact ⟨hl, ha, ‹_›, h⟩

theorem Memory.read_consCell_same {a : Nat} {b : Byte} {m : Memory} (h : Memory.wfFrom (a + 1) m = true) :
    (Memory.consCell a b m).read a = b := by
  unfold Memory.consCell
  split
  · next hb => rw [hb]; exact Memory.read_of_wfFrom h (by omega)
  · simp

theorem Memory.read_consCell_other {a a' : Nat} {b : Byte} {m : Memory} (h : a' ≠ a) :
    (Memory.consCell a b m).read a' = m.read a' := by
  unfold Memory.consCell
  split
  · rfl
  · simp [Ne.symm h]

theorem Memory.wfFrom_write {lo a : Nat} {m : Memory} (h : Memory.wfFrom lo m = true) (b : Byte) (hl : lo ≤ a)
    (ha : a < Config.memSize) : Memory.wfFrom lo (m.write a b) = true := by
  induction m generalizing lo with
  | nil => exact Memory.wfFrom_consCell rfl hl ha
  | cons c m ih =>
    have hc := h
    rw [Memory.wfFrom_cons] at h
    simp only [Memory.write]
    split
    · refine Memory.wfFrom_consCell ?_ hl ha
      rw [Memory.wfFrom_cons]; exact ⟨by omega, h.2⟩
    · split
      · next hk => subst hk; exact Memory.wfFrom_consCell h.2.2.2 hl ha
      · rw [Memory.wfFrom_cons]; exact ⟨h.1, h.2.1, h.2.2.1, ih h.2.2.2 (by omega)⟩

/-- A write of one cell that exists keeps the canonical form. -/
theorem Memory.wf_write {a : Nat} {m : Memory} (h : m.wf = true) (b : Byte) (ha : a < Config.memSize) :
    (m.write a b).wf = true :=
  Memory.wfFrom_write h b (Nat.zero_le a) ha

theorem Memory.read_write_same_from {lo a : Nat} {m : Memory} (h : Memory.wfFrom lo m = true) (b : Byte) :
    (m.write a b).read a = b := by
  induction m generalizing lo with
  | nil => exact Memory.read_consCell_same (m := []) rfl
  | cons c m ih =>
    rw [Memory.wfFrom_cons] at h
    simp only [Memory.write]
    split
    · refine Memory.read_consCell_same ?_
      rw [Memory.wfFrom_cons]; exact ⟨by omega, h.2⟩
    · split
      · next hk => subst hk; exact Memory.read_consCell_same h.2.2.2
      · rw [Memory.read_cons, if_neg (by omega)]; exact ih h.2.2.2

/-- A read at the address just written gives the byte written. -/
theorem Memory.read_write_same {a : Nat} {m : Memory} (h : m.wf = true) (b : Byte) : (m.write a b).read a = b :=
  Memory.read_write_same_from h b

/-- A write leaves every other address alone. -/
theorem Memory.read_write_other {a a' : Nat} (m : Memory) (b : Byte) (h : a' ≠ a) :
    (m.write a b).read a' = m.read a' := by
  induction m with
  | nil => exact Memory.read_consCell_other h
  | cons c m ih =>
    simp only [Memory.write]
    split
    · exact Memory.read_consCell_other h
    · split
      · next hk => subst hk; rw [Memory.read_consCell_other h, Memory.read_cons, if_neg (Ne.symm h)]
      · obtain ⟨k, d⟩ := c; simp [ih]

/-- A row of bytes within memory keeps the canonical form. -/
theorem Memory.wf_writeBytes {a : Nat} {m : Memory} (bs : List Byte) (h : m.wf = true)
    (ha : a + bs.length ≤ Config.memSize) : (m.writeBytes a bs).wf = true := by
  induction bs generalizing m a with
  | nil => exact h
  | cons b bs ih =>
    simp only [List.length_cons] at ha
    exact ih (Memory.wf_write h b (by omega)) (by omega)

/-- A row of bytes leaves every address outside it alone. -/
theorem Memory.read_writeBytes_outside {a a' : Nat} (m : Memory) (bs : List Byte)
    (h : a' < a ∨ a + bs.length ≤ a') : (m.writeBytes a bs).read a' = m.read a' := by
  induction bs generalizing m a with
  | nil => rfl
  | cons b bs ih =>
    simp only [List.length_cons] at h
    rw [Memory.writeBytes, ih (m.write a b) (by omega), Memory.read_write_other m b (by omega)]

/-- A row of bytes is read back byte by byte. -/
theorem Memory.read_writeBytes_inside {a j : Nat} {m : Memory} (bs : List Byte) (h : m.wf = true)
    (ha : a + bs.length ≤ Config.memSize) (hj : j < bs.length) : (m.writeBytes a bs).read (a + j) = bs[j] := by
  induction bs generalizing m a j with
  | nil => simp at hj
  | cons b bs ih =>
    simp only [List.length_cons] at ha hj
    cases j with
    | zero =>
      rw [Memory.writeBytes, Memory.read_writeBytes_outside _ _ (by omega)]
      exact Memory.read_write_same h b
    | succ j =>
      have := ih (m := m.write a b) (a := a + 1) (j := j) (Memory.wf_write h b (by omega)) (by omega) (by omega)
      rw [Memory.writeBytes]
      simpa [Nat.add_assoc, Nat.add_comm 1 j] using this

@[simp] theorem Memory.length_readBytes (m : Memory) (a n : Nat) : (m.readBytes a n).length = n := by
  induction n generalizing a with
  | zero => rfl
  | succ n ih => simp [Memory.readBytes, ih]

@[simp] theorem Memory.getElem_readBytes (m : Memory) (a n j : Nat) (h : j < (m.readBytes a n).length) :
    (m.readBytes a n)[j] = m.read (a + j) := by
  induction n generalizing a j with
  | zero => simp at h
  | succ n ih =>
    cases j with
    | zero => rfl
    | succ j => simp only [Memory.readBytes, List.getElem_cons_succ, ih]; congr 1; omega

end Sys2Proof.Machine
end

