-- ==== Sys2Proof/Laws/State.lean ====
section
/-! SUPPORT. What every named update of the state does to every field: one lemma per field and update. -/

namespace Sys2Proof.Machine

/-! ## V[x] <- b -/

@[simp] theorem State.setReg_V (s : State) (x : RegId) (b : Byte) : (s.setReg x b).V = s.V.set x.val b := rfl
@[simp] theorem State.setReg_I (s : State) (x : RegId) (b : Byte) : (s.setReg x b).I = s.I := rfl
@[simp] theorem State.setReg_pc (s : State) (x : RegId) (b : Byte) : (s.setReg x b).pc = s.pc := rfl
@[simp] theorem State.setReg_stack (s : State) (x : RegId) (b : Byte) : (s.setReg x b).stack = s.stack := rfl
@[simp] theorem State.setReg_SP (s : State) (x : RegId) (b : Byte) : (s.setReg x b).SP = s.SP := rfl
@[simp] theorem State.setReg_DT (s : State) (x : RegId) (b : Byte) : (s.setReg x b).DT = s.DT := rfl
@[simp] theorem State.setReg_ST (s : State) (x : RegId) (b : Byte) : (s.setReg x b).ST = s.ST := rfl
@[simp] theorem State.setReg_mem (s : State) (x : RegId) (b : Byte) : (s.setReg x b).mem = s.mem := rfl
@[simp] theorem State.setReg_keys (s : State) (x : RegId) (b : Byte) : (s.setReg x b).keys = s.keys := rfl
@[simp] theorem State.setReg_keyTarget (s : State) (x : RegId) (b : Byte) : (s.setReg x b).keyTarget = s.keyTarget := rfl
@[simp] theorem State.setReg_fb (s : State) (x : RegId) (b : Byte) : (s.setReg x b).fb = s.fb := rfl
@[simp] theorem State.setReg_dirty (s : State) (x : RegId) (b : Byte) : (s.setReg x b).dirty = s.dirty := rfl
@[simp] theorem State.setReg_status (s : State) (x : RegId) (b : Byte) : (s.setReg x b).status = s.status := rfl
@[simp] theorem State.setReg_fault (s : State) (x : RegId) (b : Byte) : (s.setReg x b).fault = s.fault := rfl
@[simp] theorem State.setReg_phase (s : State) (x : RegId) (b : Byte) : (s.setReg x b).phase = s.phase := rfl
@[simp] theorem State.setReg_rndDraws (s : State) (x : RegId) (b : Byte) : (s.setReg x b).rndDraws = s.rndDraws := rfl
@[simp] theorem State.setReg_pending (s : State) (x : RegId) (b : Byte) : (s.setReg x b).pending = s.pending := rfl

/-! ## the flag, then the result -/

@[simp] theorem State.setFlagThenReg_I (s : State) (x : RegId) (f b : Byte) : (s.setFlagThenReg x f b).I = s.I := rfl
@[simp] theorem State.setFlagThenReg_pc (s : State) (x : RegId) (f b : Byte) : (s.setFlagThenReg x f b).pc = s.pc := rfl
@[simp] theorem State.setFlagThenReg_stack (s : State) (x : RegId) (f b : Byte) : (s.setFlagThenReg x f b).stack = s.stack := rfl
@[simp] theorem State.setFlagThenReg_SP (s : State) (x : RegId) (f b : Byte) : (s.setFlagThenReg x f b).SP = s.SP := rfl
@[simp] theorem State.setFlagThenReg_DT (s : State) (x : RegId) (f b : Byte) : (s.setFlagThenReg x f b).DT = s.DT := rfl
@[simp] theorem State.setFlagThenReg_ST (s : State) (x : RegId) (f b : Byte) : (s.setFlagThenReg x f b).ST = s.ST := rfl
@[simp] theorem State.setFlagThenReg_mem (s : State) (x : RegId) (f b : Byte) : (s.setFlagThenReg x f b).mem = s.mem := rfl
@[simp] theorem State.setFlagThenReg_keys (s : State) (x : RegId) (f b : Byte) : (s.setFlagThenReg x f b).keys = s.keys := rfl
@[simp] theorem State.setFlagThenReg_keyTarget (s : State) (x : RegId) (f b : Byte) : (s.setFlagThenReg x f b).keyTarget = s.keyTarget := rfl
@[simp] theorem State.setFlagThenReg_fb (s : State) (x : RegId) (f b : Byte) : (s.setFlagThenReg x f b).fb = s.fb := rfl
@[simp] theorem State.setFlagThenReg_dirty (s : State) (x : RegId) (f b : Byte) : (s.setFlagThenReg x f b).dirty = s.dirty := rfl
@[simp] theorem State.setFlagThenReg_status (s : State) (x : RegId) (f b : Byte) : (s.setFlagThenReg x f b).status = s.status := rfl
@[simp] theorem State.setFlagThenReg_fault (s : State) (x : RegId) (f b : Byte) : (s.setFlagThenReg x f b).fault = s.fault := rfl
@[simp] theorem State.setFlagThenReg_phase (s : State) (x : RegId) (f b : Byte) : (s.setFlagThenReg x f b).phase = s.phase := rfl
@[simp] theorem State.setFlagThenReg_rndDraws (s : State) (x : RegId) (f b : Byte) : (s.setFlagThenReg x f b).rndDraws = s.rndDraws := rfl
@[simp] theorem State.setFlagThenReg_pending (s : State) (x : RegId) (f b : Byte) : (s.setFlagThenReg x f b).pending = s.pending := rfl

/-! ## pc <- pc + n -/

@[simp] theorem State.advance_V (s : State) (n : Nat) : (s.advance n).V = s.V := rfl
@[simp] theorem State.advance_I (s : State) (n : Nat) : (s.advance n).I = s.I := rfl
@[simp] theorem State.advance_pc (s : State) (n : Nat) : (s.advance n).pc = s.pc + BitVec.ofNat 16 n := rfl
@[simp] theorem State.advance_stack (s : State) (n : Nat) : (s.advance n).stack = s.stack := rfl
@[simp] theorem State.advance_SP (s : State) (n : Nat) : (s.advance n).SP = s.SP := rfl
@[simp] theorem State.advance_DT (s : State) (n : Nat) : (s.advance n).DT = s.DT := rfl
@[simp] theorem State.advance_ST (s : State) (n : Nat) : (s.advance n).ST = s.ST := rfl
@[simp] theorem State.advance_mem (s : State) (n : Nat) : (s.advance n).mem = s.mem := rfl
@[simp] theorem State.advance_keys (s : State) (n : Nat) : (s.advance n).keys = s.keys := rfl
@[simp] theorem State.advance_keyTarget (s : State) (n : Nat) : (s.advance n).keyTarget = s.keyTarget := rfl
@[simp] theorem State.advance_fb (s : State) (n : Nat) : (s.advance n).fb = s.fb := rfl
@[simp] theorem State.advance_dirty (s : State) (n : Nat) : (s.advance n).dirty = s.dirty := rfl
@[simp] theorem State.advance_status (s : State) (n : Nat) : (s.advance n).status = s.status := rfl
@[simp] theorem State.advance_fault (s : State) (n : Nat) : (s.advance n).fault = s.fault := rfl
@[simp] theorem State.advance_phase (s : State) (n : Nat) : (s.advance n).phase = s.phase := rfl
@[simp] theorem State.advance_rndDraws (s : State) (n : Nat) : (s.advance n).rndDraws = s.rndDraws := rfl
@[simp] theorem State.advance_pending (s : State) (n : Nat) : (s.advance n).pending = s.pending := rfl
@[simp] theorem State.advance_reg (s : State) (n : Nat) (r : RegId) : (s.advance n).reg r = s.reg r := rfl

/-! ## pc <- pc + 2 -/

@[simp] theorem State.pcPlus2_V (s : State) : (s.pcPlus2).V = s.V := rfl
@[simp] theorem State.pcPlus2_I (s : State) : (s.pcPlus2).I = s.I := rfl
@[simp] theorem State.pcPlus2_pc (s : State) : (s.pcPlus2).pc = s.pc + 2 := rfl
@[simp] theorem State.pcPlus2_stack (s : State) : (s.pcPlus2).stack = s.stack := rfl
@[simp] theorem State.pcPlus2_SP (s : State) : (s.pcPlus2).SP = s.SP := rfl
@[simp] theorem State.pcPlus2_DT (s : State) : (s.pcPlus2).DT = s.DT := rfl
@[simp] theorem State.pcPlus2_ST (s : State) : (s.pcPlus2).ST = s.ST := rfl
@[simp] theorem State.pcPlus2_mem (s : State) : (s.pcPlus2).mem = s.mem := rfl
@[simp] theorem State.pcPlus2_keys (s : State) : (s.pcPlus2).keys = s.keys := rfl
@[simp] theorem State.pcPlus2_keyTarget (s : State) : (s.pcPlus2).keyTarget = s.keyTarget := rfl
@[simp] theorem State.pcPlus2_fb (s : State) : (s.pcPlus2).fb = s.fb := rfl
@[simp] theorem State.pcPlus2_dirty (s : State) : (s.pcPlus2).dirty = s.dirty := rfl
@[simp] theorem State.pcPlus2_status (s : State) : (s.pcPlus2).status = s.status := rfl
@[simp] theorem State.pcPlus2_fault (s : State) : (s.pcPlus2).fault = s.fault := rfl
@[simp] theorem State.pcPlus2_phase (s : State) : (s.pcPlus2).phase = s.phase := rfl
@[simp] theorem State.pcPlus2_rndDraws (s : State) : (s.pcPlus2).rndDraws = s.rndDraws := rfl
@[simp] theorem State.pcPlus2_pending (s : State) : (s.pcPlus2).pending = s.pending := rfl
@[simp] theorem State.pcPlus2_reg (s : State) (r : RegId) : (s.pcPlus2).reg r = s.reg r := rfl

/-! ## a skip -/

@[simp] theorem State.skipIf_V (s : State) (c : Bool) : (s.skipIf c).V = s.V := rfl
@[simp] theorem State.skipIf_I (s : State) (c : Bool) : (s.skipIf c).I = s.I := rfl
@[simp] theorem State.skipIf_stack (s : State) (c : Bool) : (s.skipIf c).stack = s.stack := rfl
@[simp] theorem State.skipIf_SP (s : State) (c : Bool) : (s.skipIf c).SP = s.SP := rfl
@[simp] theorem State.skipIf_DT (s : State) (c : Bool) : (s.skipIf c).DT = s.DT := rfl
@[simp] theorem State.skipIf_ST (s : State) (c : Bool) : (s.skipIf c).ST = s.ST := rfl
@[simp] theorem State.skipIf_mem (s : State) (c : Bool) : (s.skipIf c).mem = s.mem := rfl
@[simp] theorem State.skipIf_keys (s : State) (c : Bool) : (s.skipIf c).keys = s.keys := rfl
@[simp] theorem State.skipIf_keyTarget (s : State) (c : Bool) : (s.skipIf c).keyTarget = s.keyTarget := rfl
@[simp] theorem State.skipIf_fb (s : State) (c : Bool) : (s.skipIf c).fb = s.fb := rfl
@[simp] theorem State.skipIf_dirty (s : State) (c : Bool) : (s.skipIf c).dirty = s.dirty := rfl
@[simp] theorem State.skipIf_status (s : State) (c : Bool) : (s.skipIf c).status = s.status := rfl
@[simp] theorem State.skipIf_fault (s : State) (c : Bool) : (s.skipIf c).fault = s.fault := rfl
@[simp] theorem State.skipIf_phase (s : State) (c : Bool) : (s.skipIf c).phase = s.phase := rfl
@[simp] theorem State.skipIf_rndDraws (s : State) (c : Bool) : (s.skipIf c).rndDraws = s.rndDraws := rfl
@[simp] theorem State.skipIf_pending (s : State) (c : Bool) : (s.skipIf c).pending = s.pending := rfl
@[simp] theorem State.skipIf_reg (s : State) (c : Bool) (r : RegId) : (s.skipIf c).reg r = s.reg r := rfl

/-! ## the entry of a fault -/

@[simp] theorem State.takeFault_V (s : State) (c : FaultCause) (o : Option Word) (n : Option Nat) : (s.takeFault c o n).V = s.V := rfl
@[simp] theorem State.takeFault_I (s : State) (c : FaultCause) (o : Option Word) (n : Option Nat) : (s.takeFault c o n).I = s.I := rfl
@[simp] theorem State.takeFault_pc (s : State) (c : FaultCause) (o : Option Word) (n : Option Nat) : (s.takeFault c o n).pc = s.pc := rfl
@[simp] theorem State.takeFault_stack (s : State) (c : FaultCause) (o : Option Word) (n : Option Nat) : (s.takeFault c o n).stack = s.stack := rfl
@[simp] theorem State.takeFault_SP (s : State) (c : FaultCause) (o : Option Word) (n : Option Nat) : (s.takeFault c o n).SP = s.SP := rfl
@[simp] theorem State.takeFault_DT (s : State) (c : FaultCause) (o : Option Word) (n : Option Nat) : (s.takeFault c o n).DT = s.DT := rfl
@[simp] theorem State.takeFault_ST (s : State) (c : FaultCause) (o : Option Word) (n : Option Nat) : (s.takeFault c o n).ST = s.ST := rfl
@[simp] theorem State.takeFault_mem (s : State) (c : FaultCause) (o : Option Word) (n : Option Nat) : (s.takeFault c o n).mem = s.mem := rfl
@[simp] theorem State.takeFault_keys (s : State) (c : FaultCause) (o : Option Word) (n : Option Nat) : (s.takeFault c o n).keys = s.keys := rfl
@[simp] theorem State.takeFault_keyTarget (s : State) (c : FaultCause) (o : Option Word) (n : Option Nat) : (s.takeFault c o n).keyTarget = s.keyTarget := rfl
@[simp] theorem State.takeFault_fb (s : State) (c : FaultCause) (o : Option Word) (n : Option Nat) : (s.takeFault c o n).fb = s.fb := rfl
@[simp] theorem State.takeFault_dirty (s : State) (c : FaultCause) (o : Option Word) (n : Option Nat) : (s.takeFault c o n).dirty = s.dirty := rfl
@[simp] theorem State.takeFault_status (s : State) (c : FaultCause) (o : Option Word) (n : Option Nat) : (s.takeFault c o n).status = .faulted := rfl
@[simp] theorem State.takeFault_fault (s : State) (c : FaultCause) (o : Option Word) (n : Option Nat) : (s.takeFault c o n).fault = some ⟨c, o, s.pc, n⟩ := rfl
@[simp] theorem State.takeFault_phase (s : State) (c : FaultCause) (o : Option Word) (n : Option Nat) : (s.takeFault c o n).phase = s.phase := rfl
@[simp] theorem State.takeFault_rndDraws (s : State) (c : FaultCause) (o : Option Word) (n : Option Nat) : (s.takeFault c o n).rndDraws = s.rndDraws := rfl
@[simp] theorem State.takeFault_pending (s : State) (c : FaultCause) (o : Option Word) (n : Option Nat) : (s.takeFault c o n).pending = s.pending := rfl
@[simp] theorem State.takeFault_reg (s : State) (c : FaultCause) (o : Option Word) (n : Option Nat) (r : RegId) : (s.takeFault c o n).reg r = s.reg r := rfl

/-! ## the timer tick -/

@[simp] theorem State.timerTick_V (s : State) : (s.timerTick).V = s.V := rfl
@[simp] theorem State.timerTick_I (s : State) : (s.timerTick).I = s.I := rfl
@[simp] theorem State.timerTick_pc (s : State) : (s.timerTick).pc = s.pc := rfl
@[simp] theorem State.timerTick_stack (s : State) : (s.timerTick).stack = s.stack := rfl
@[simp] theorem State.timerTick_SP (s : State) : (s.timerTick).SP = s.SP := rfl
@[simp] theorem State.timerTick_DT (s : State) : (s.timerTick).DT = tickDown s.DT := rfl
@[simp] theorem State.timerTick_ST (s : State) : (s.timerTick).ST = tickDown s.ST := rfl
@[simp] theorem State.timerTick_mem (s : State) : (s.timerTick).mem = s.mem := rfl
@[simp] theorem State.timerTick_keys (s : State) : (s.timerTick).keys = s.keys := rfl
@[simp] theorem State.timerTick_keyTarget (s : State) : (s.timerTick).keyTarget = s.keyTarget := rfl
@[simp] theorem State.timerTick_fb (s : State) : (s.timerTick).fb = s.fb := rfl
@[simp] theorem State.timerTick_dirty (s : State) : (s.timerTick).dirty = s.dirty := rfl
@[simp] theorem State.timerTick_status (s : State) : (s.timerTick).status = s.status := rfl
@[simp] theorem State.timerTick_fault (s : State) : (s.timerTick).fault = s.fault := rfl
@[simp] theorem State.timerTick_phase (s : State) : (s.timerTick).phase = s.phase := rfl
@[simp] theorem State.timerTick_rndDraws (s : State) : (s.timerTick).rndDraws = s.rndDraws := rfl
@[simp] theorem State.timerTick_pending (s : State) : (s.timerTick).pending = s.pending := rfl
@[simp] theorem State.timerTick_reg (s : State) (r : RegId) : (s.timerTick).reg r = s.reg r := rfl

/-! ## a random draw -/

@[simp] theorem State.draw_V (s : State) : (s.draw.2).V = s.V := rfl
@[simp] theorem State.draw_I (s : State) : (s.draw.2).I = s.I := rfl
@[simp] theorem State.draw_pc (s : State) : (s.draw.2).pc = s.pc := rfl
@[simp] theorem State.draw_stack (s : State) : (s.draw.2).stack = s.stack := rfl
@[simp] theorem State.draw_SP (s : State) : (s.draw.2).SP = s.SP := rfl
@[simp] theorem State.draw_DT (s : State) : (s.draw.2).DT = s.DT := rfl
@[simp] theorem State.draw_ST (s : State) : (s.draw.2).ST = s.ST := rfl
@[simp] theorem State.draw_mem (s : State) : (s.draw.2).mem = s.mem := rfl
@[simp] theorem State.draw_keys (s : State) : (s.draw.2).keys = s.keys := rfl
@[simp] theorem State.draw_keyTarget (s : State) : (s.draw.2).keyTarget = s.keyTarget := rfl
@[simp] theorem State.draw_fb (s : State) : (s.draw.2).fb = s.fb := rfl
@[simp] theorem State.draw_dirty (s : State) : (s.draw.2).dirty = s.dirty := rfl
@[simp] theorem State.draw_status (s : State) : (s.draw.2).status = s.status := rfl
@[simp] theorem State.draw_fault (s : State) : (s.draw.2).fault = s.fault := rfl
@[simp] theorem State.draw_phase (s : State) : (s.draw.2).phase = s.phase := rfl
@[simp] theorem State.draw_rndDraws (s : State) : (s.draw.2).rndDraws = s.rndDraws + 1 := rfl
@[simp] theorem State.draw_pending (s : State) : (s.draw.2).pending = s.pending := rfl
@[simp] theorem State.draw_reg (s : State) (r : RegId) : (s.draw.2).reg r = s.reg r := rfl

/-! ## the register load -/

@[simp] theorem State.loadRegsUpTo_I (s : State) (x : RegId) (a : Nat) : (s.loadRegsUpTo x a).I = s.I := rfl
@[simp] theorem State.loadRegsUpTo_pc (s : State) (x : RegId) (a : Nat) : (s.loadRegsUpTo x a).pc = s.pc := rfl
@[simp] theorem State.loadRegsUpTo_stack (s : State) (x : RegId) (a : Nat) : (s.loadRegsUpTo x a).stack = s.stack := rfl
@[simp] theorem State.loadRegsUpTo_SP (s : State) (x : RegId) (a : Nat) : (s.loadRegsUpTo x a).SP = s.SP := rfl
@[simp] theorem State.loadRegsUpTo_DT (s : State) (x : RegId) (a : Nat) : (s.loadRegsUpTo x a).DT = s.DT := rfl
@[simp] theorem State.loadRegsUpTo_ST (s : State) (x : RegId) (a : Nat) : (s.loadRegsUpTo x a).ST = s.ST := rfl
@[simp] theorem State.loadRegsUpTo_mem (s : State) (x : RegId) (a : Nat) : (s.loadRegsUpTo x a).mem = s.mem := rfl
@[simp] theorem State.loadRegsUpTo_keys (s : State) (x : RegId) (a : Nat) : (s.loadRegsUpTo x a).keys = s.keys := rfl
@[simp] theorem State.loadRegsUpTo_keyTarget (s : State) (x : RegId) (a : Nat) : (s.loadRegsUpTo x a).keyTarget = s.keyTarget := rfl
@[simp] theorem State.loadRegsUpTo_fb (s : State) (x : RegId) (a : Nat) : (s.loadRegsUpTo x a).fb = s.fb := rfl
@[simp] theorem State.loadRegsUpTo_dirty (s : State) (x : RegId) (a : Nat) : (s.loadRegsUpTo x a).dirty = s.dirty := rfl
@[simp] theorem State.loadRegsUpTo_status (s : State) (x : RegId) (a : Nat) : (s.loadRegsUpTo x a).status = s.status := rfl
@[simp] theorem State.loadRegsUpTo_fault (s : State) (x : RegId) (a : Nat) : (s.loadRegsUpTo x a).fault = s.fault := rfl
@[simp] theorem State.loadRegsUpTo_phase (s : State) (x : RegId) (a : Nat) : (s.loadRegsUpTo x a).phase = s.phase := rfl
@[simp] theorem State.loadRegsUpTo_rndDraws (s : State) (x : RegId) (a : Nat) : (s.loadRegsUpTo x a).rndDraws = s.rndDraws := rfl
@[simp] theorem State.loadRegsUpTo_pending (s : State) (x : RegId) (a : Nat) : (s.loadRegsUpTo x a).pending = s.pending := rfl

/-! ## `set_keys` -/

@[simp] theorem State.setKeys_V (s : State) (k : BitVec 16) : (s.setKeys k).V = s.V := rfl
@[simp] theorem State.setKeys_I (s : State) (k : BitVec 16) : (s.setKeys k).I = s.I := rfl
@[simp] theorem State.setKeys_pc (s : State) (k : BitVec 16) : (s.setKeys k).pc = s.pc := rfl
@[simp] theorem State.setKeys_stack (s : State) (k : BitVec 16) : (s.setKeys k).stack = s.stack := rfl
@[simp] theorem State.setKeys_SP (s : State) (k : BitVec 16) : (s.setKeys k).SP = s.SP := rfl
@[simp] theorem State.setKeys_DT (s : State) (k : BitVec 16) : (s.setKeys k).DT = s.DT := rfl
@[simp] theorem State.setKeys_ST (s : State) (k : BitVec 16) : (s.setKeys k).ST = s.ST := rfl
@[simp] theorem State.setKeys_mem (s : State) (k : BitVec 16) : (s.setKeys k).mem = s.mem := rfl
@[simp] theorem State.setKeys_keys (s : State) (k : BitVec 16) : (s.setKeys k).keys = k := rfl
@[simp] theorem State.setKeys_keyTarget (s : State) (k : BitVec 16) : (s.setKeys k).keyTarget = s.keyTarget := rfl
@[simp] theorem State.setKeys_fb (s : State) (k : BitVec 16) : (s.setKeys k).fb = s.fb := rfl
@[simp] theorem State.setKeys_dirty (s : State) (k : BitVec 16) : (s.setKeys k).dirty = s.dirty := rfl
@[simp] theorem State.setKeys_status (s : State) (k : BitVec 16) : (s.setKeys k).status = s.status := rfl
@[simp] theorem State.setKeys_fault (s : State) (k : BitVec 16) : (s.setKeys k).fault = s.fault := rfl
@[simp] theorem State.setKeys_phase (s : State) (k : BitVec 16) : (s.setKeys k).phase = s.phase := rfl
@[simp] theorem State.setKeys_rndDraws (s : State) (k : BitVec 16) : (s.setKeys k).rndDraws = s.rndDraws := rfl
@[simp] theorem State.setKeys_pending (s : State) (k : BitVec 16) : (s.setKeys k).pending = s.pending := rfl
@[simp] theorem State.setKeys_reg (s : State) (k : BitVec 16) (r : RegId) : (s.setKeys k).reg r = s.reg r := rfl

/-! ## `consume_dirty` -/

@[simp] theorem State.consumeDirty_V (s : State) : (s.consumeDirty).V = s.V := rfl
@[simp] theorem State.consumeDirty_I (s : State) : (s.consumeDirty).I = s.I := rfl
@[simp] theorem State.consumeDirty_pc (s : State) : (s.consumeDirty).pc = s.pc := rfl
@[simp] theorem State.consumeDirty_stack (s : State) : (s.consumeDirty).stack = s.stack := rfl
@[simp] theorem State.consumeDirty_SP (s : State) : (s.consumeDirty).SP = s.SP := rfl
@[simp] theorem State.consumeDirty_DT (s : State) : (s.consumeDirty).DT = s.DT := rfl
@[simp] theorem State.consumeDirty_ST (s : State) : (s.consumeDirty).ST = s.ST := rfl
@[simp] theorem State.consumeDirty_mem (s : State) : (s.consumeDirty).mem = s.mem := rfl
@[simp] theorem State.consumeDirty_keys (s : State) : (s.consumeDirty).keys = s.keys := rfl
@[simp] theorem State.consumeDirty_keyTarget (s : State) : (s.consumeDirty).keyTarget = s.keyTarget := rfl
@[simp] theorem State.consumeDirty_fb (s : State) : (s.consumeDirty).fb = s.fb := rfl
@[simp] theorem State.consumeDirty_dirty (s : State) : (s.consumeDirty).dirty = false := rfl
@[simp] theorem State.consumeDirty_status (s : State) : (s.consumeDirty).status = s.status := rfl
@[simp] theorem State.consumeDirty_fault (s : State) : (s.consumeDirty).fault = s.fault := rfl
@[simp] theorem State.consumeDirty_phase (s : State) : (s.consumeDirty).phase = s.phase := rfl
@[simp] theorem State.consumeDirty_rndDraws (s : State) : (s.consumeDirty).rndDraws = s.rndDraws := rfl
@[simp] theorem State.consumeDirty_pending (s : State) : (s.consumeDirty).pending = s.pending := rfl
@[simp] theorem State.consumeDirty_reg (s : State) (r : RegId) : (s.consumeDirty).reg r = s.reg r := rfl

/-! ## `reset` -/

@[simp] theorem State.initialise_V (s : State) : s.initialise.V = Vector.replicate 16 0 := rfl
@[simp] theorem State.initialise_I (s : State) : s.initialise.I = 0 := rfl
@[simp] theorem State.initialise_pc (s : State) : s.initialise.pc = 0x200 := rfl
@[simp] theorem State.initialise_stack (s : State) : s.initialise.stack = Vector.replicate 16 0 := rfl
@[simp] theorem State.initialise_SP (s : State) : s.initialise.SP = 0 := rfl
@[simp] theorem State.initialise_DT (s : State) : s.initialise.DT = 0 := rfl
@[simp] theorem State.initialise_ST (s : State) : s.initialise.ST = 0 := rfl
@[simp] theorem State.initialise_mem (s : State) : s.initialise.mem = [] := rfl
@[simp] theorem State.initialise_keys (s : State) : s.initialise.keys = 0 := rfl
@[simp] theorem State.initialise_keyTarget (s : State) : s.initialise.keyTarget = 0 := rfl
@[simp] theorem State.initialise_fb (s : State) : s.initialise.fb = Vector.replicate 32 0 := rfl
@[simp] theorem State.initialise_dirty (s : State) : s.initialise.dirty = false := rfl
@[simp] theorem State.initialise_status (s : State) : s.initialise.status = .running := rfl
@[simp] theorem State.initialise_fault (s : State) : s.initialise.fault = none := rfl
@[simp] theorem State.initialise_phase (s : State) : s.initialise.phase = .boot := rfl
@[simp] theorem State.initialise_rndDraws (s : State) : s.initialise.rndDraws = s.rndDraws := rfl
@[simp] theorem State.initialise_pending (s : State) : s.initialise.pending = s.pending := rfl

/-! ## Reading a register after an update of the registers -/

@[simp] theorem State.reg_setReg (s : State) (x r : RegId) (b : Byte) :
    (s.setReg x b).reg r = if r = x then b else s.reg r := by
  simp only [State.reg, State.setReg, Vector.getElem_set, Fin.ext_iff, eq_comm]

/-- The result wins over the flag when the destination is VF (42_alu R121). -/
@[simp] theorem State.reg_setFlagThenReg (s : State) (x r : RegId) (f b : Byte) :
    (s.setFlagThenReg x f b).reg r = if r = x then b else if r = 15 then f else s.reg r := by
  simp [State.setFlagThenReg]

@[simp] theorem State.reg_loadRegsUpTo (s : State) (x r : RegId) (a : Nat) :
    (s.loadRegsUpTo x a).reg r = if r ≤ x then s.mem.read (a + r.val) else s.reg r := by
  simp [State.reg, State.loadRegsUpTo]

@[simp] theorem State.reg_initialise (s : State) (r : RegId) : s.initialise.reg r = 0 := by
  simp [State.reg]

/-- A skip adds 4 on a match and 2 otherwise (10_state R24). -/
@[simp] theorem State.skipIf_pc (s : State) (c : Bool) : (s.skipIf c).pc = if c then s.pc + 4 else s.pc + 2 := by
  cases c <;> rfl

end Sys2Proof.Machine
end

