-- ==== Sys2Proof/Laws/Ops.lean ====
section
/-! SUPPORT. What every shared operation can do, said once: the stack, the translator and the fetch, the data range check,
the entry of a fault, the tick, the arbiter, the end of a cycle. Later proofs cite these instead of unfolding. -/

namespace Sys2Proof.Machine

/-! ## The call stack -/

/-- A push answers none exactly when the stack is full, else the entry is stored and SP counts it. -/
theorem State.push_cases (s : State) (a : Word) :
    (s.SP.val = 16 ∧ s.push a = none) ∨
      ∃ h : s.SP.val < 16, s.push a = some { s with stack := s.stack.set s.SP.val a, SP := ⟨s.SP.val + 1, by omega⟩ } := by
  by_cases h : s.SP.val < 16
  · exact .inr ⟨h, by simp [State.push, h]⟩
  · exact .inl ⟨by omega, by simp [State.push, h]⟩

/-- A pop answers none exactly when the stack is empty, else the top entry and a state with one entry less. -/
theorem State.pop_cases (s : State) :
    (s.SP.val = 0 ∧ s.pop = none) ∨
      ∃ h : 0 < s.SP.val, s.pop =
        some (s.stack[s.SP.val - 1]'(by omega), { s with SP := ⟨s.SP.val - 1, by omega⟩ }) := by
  by_cases h : s.SP.val = 0
  · exact .inl ⟨h, by simp [State.pop, h]⟩
  · exact .inr ⟨by omega, by simp [State.pop, h]⟩

/-! ## The translator and the fetch -/

theorem translate_ok {a : Nat} {k : AccessKind} (h : a < 4096) : translate a k = .ok a := by
  simp [translate, Config.memSize, h]

theorem translate_error {a : Nat} {k : AccessKind} (h : 4096 ≤ a) : translate a k = .error ⟨boundsCause k, a⟩ := by
  simp [translate, Config.memSize, Nat.not_lt.mpr h]

theorem State.memRead1_ok {s : State} {a : Nat} {k : AccessKind} (h : a < 4096) :
    s.memRead1 a k = .ok (s.mem.read a) := by
  simp [State.memRead1, translate_ok h]

theorem State.memRead1_error {s : State} {a : Nat} {k : AccessKind} (h : 4096 ≤ a) :
    s.memRead1 a k = .error ⟨boundsCause k, a⟩ := by
  simp [State.memRead1, translate_error h]

/-- The fetch answers the two bytes at pc, or the first byte address that does not exist. -/
theorem State.fetch_cases (s : State) :
    (s.pc.toNat ≤ 0xFFE ∧
        s.fetch = .ok (wordOfBytes (s.mem.read s.pc.toNat) (s.mem.read (s.pc.toNat + 1)))) ∨
      (s.pc.toNat = 0xFFF ∧ s.fetch = .error ⟨.fetchBounds, 4096⟩) ∨
      (0x1000 ≤ s.pc.toNat ∧ s.fetch = .error ⟨.fetchBounds, s.pc.toNat⟩) := by
  unfold State.fetch State.memRead2
  by_cases h : s.pc.toNat < 4096
  · rw [State.memRead1_ok h]
    by_cases h' : s.pc.toNat + 1 < 4096
    · rw [State.memRead1_ok h']; exact .inl ⟨by omega, rfl⟩
    · rw [State.memRead1_error (by omega)]
      have : s.pc.toNat = 0xFFF := by omega
      exact .inr (.inl ⟨this, by rw [this]; rfl⟩)
  · rw [State.memRead1_error (by omega)]
    exact .inr (.inr ⟨by omega, rfl⟩)

/-- The data range check answers none exactly when every byte of the range exists, else the lowest that does not. -/
theorem badDataAddress_cases (base n : Nat) :
    (badDataAddress base n = none ∧ (n = 0 ∨ base + n ≤ 4096)) ∨
      (badDataAddress base n = some (max base 4096) ∧ 0 < n ∧ 4096 < base + n) := by
  unfold badDataAddress Config.memSize
  split
  · exact .inr ⟨rfl, by omega, by omega⟩
  · exact .inl ⟨rfl, by omega⟩

/-! ## The answers of the shared shapes -/

@[simp] theorem State.raise_eq (s : State) (c : FaultCause) (i : Instr) (n : Option Nat) :
    s.raise c i n = .next (s.takeFault c (some (encode i)) n) := rfl

@[simp] theorem State.writeResult_eq (s : State) (x : RegId) (b : Byte) :
    s.writeResult x b = .next (s.setReg x b).pcPlus2 := rfl

@[simp] theorem State.writeFlagResult_eq (s : State) (x : RegId) (f b : Byte) :
    s.writeFlagResult x f b = .next (s.setFlagThenReg x f b).pcPlus2 := rfl

/-! ## Timers and the end of a cycle -/

theorem tickDown_toNat (b : Byte) : (tickDown b).toNat = b.toNat - 1 := by
  unfold tickDown
  split
  · next h => simp [h]
  · next h =>
    have h' : b.toNat ≠ 0 := fun h0 => h (by apply BitVec.eq_of_toNat_eq; simpa using h0)
    bv_omega

theorem State.endCycle_running {s : State} (h : s.status = .running) : s.endCycle = s.timerTick := by
  simp [State.endCycle, h]

theorem State.endCycle_idle {s : State} (h : s.status ≠ .running) : s.endCycle = s := by
  simp [State.endCycle, h]

/-! ## The arbiter -/

theorem Framebuffer.pixel_set (fb : Framebuffer) (y : Nat) (hy : y < 32) (row : BitVec 64) (px py : Nat) :
    Framebuffer.pixel (fb.set y row) px py = if py = y then row.getLsbD px else fb.pixel px py := by
  unfold Framebuffer.pixel
  by_cases h : py < 32
  · by_cases e : y = py
    · subst e; simp [h]
    · simp [h, e, Ne.symm e]
  · simp [h, show py ≠ y by omega]

/-- One plotted bit inverts its own cell, if it is on the screen, and no other. -/
theorem Canvas.pixel_plot (c : Canvas) (x y : Nat) (bit : Bool) (px py : Nat) (hx : px < 64) :
    (c.plot x y bit).fb.pixel px py =
      (c.fb.pixel px py ^^ (bit && decide (px = x) && decide (py = y) && decide (y < 32))) := by
  unfold Canvas.plot
  by_cases hy : y < 32
  · by_cases hb : x < 64 ∧ bit = true
    · simp only [hy, hb, and_self, if_true, dif_pos, Framebuffer.pixel_set]
      by_cases e : py = y
      · subst e
        simp only [Framebuffer.pixel, hy, dif_pos, BitVec.getLsbD_xor, BitVec.getLsbD_twoPow, if_true]
        simp only [decide_true, Bool.and_true, Bool.true_and, hb.1]
        by_cases e' : px = x 
        · simp [e']
        · simp [e', Ne.symm e']
      · simp [e]
    · rw [dif_pos hy, if_neg hb]
      by_cases e : px = x
      · subst e; cases bit <;> simp_all
      · simp [e]
  · simp [hy]

/-- One plotted bit collides exactly when it is 1 on a lit cell of the screen. -/
theorem Canvas.collision_plot (c : Canvas) (x y : Nat) (bit : Bool) :
    (c.plot x y bit).collision = (c.collision || (bit && decide (x < 64) && c.fb.pixel x y)) := by
  unfold Canvas.plot Framebuffer.pixel
  by_cases hy : y < 32
  · by_cases hx : x < 64 <;> cases bit <;> simp [hy, hx]
  · simp [hy]

@[simp] theorem Framebuffer.pixel_clear (px py : Nat) : Framebuffer.clear.pixel px py = false := by
  simp [Framebuffer.clear, Framebuffer.pixel]

end Sys2Proof.Machine
end

