-- ==== Sys2Proof/Laws/Exec.lean ====
section
/-! SUPPORT. The answer of every instruction that can fault, said once: the fault with its condition, or the next state. The
other instructions have one answer, by definition. -/

namespace Sys2Proof.Machine

theorem execRet_cases (s : State) :
    (s.SP.val = 0 ∧ execRet s = .next (s.takeFault .stackUnderflow (some (encode .ret)) (some 0))) ∨
      ∃ h : 0 < s.SP.val, execRet s =
        .next { s with SP := ⟨s.SP.val - 1, by omega⟩, pc := s.stack[s.SP.val - 1]'(by omega) + 2 } := by
  rcases s.pop_cases with ⟨h, e⟩ | ⟨h, e⟩
  · exact .inl ⟨h, by simp [execRet, e, h]⟩
  · exact .inr ⟨h, by simp [execRet, e]⟩

theorem execCall_cases (nnn : Addr12) (s : State) :
    (s.SP.val = 16 ∧ execCall nnn s = .next (s.takeFault .stackOverflow (some (encode (.call nnn))) (some 16))) ∨
      ∃ h : s.SP.val < 16, execCall nnn s =
        .next { s with stack := s.stack.set s.SP.val s.pc, SP := ⟨s.SP.val + 1, by omega⟩, pc := zextAddr nnn } := by
  rcases s.push_cases s.pc with ⟨h, e⟩ | ⟨h, e⟩
  · exact .inl ⟨h, by simp [execCall, e, h]⟩
  · exact .inr ⟨h, by simp [execCall, e]⟩

theorem execSkp_cases (x : RegId) (s : State) :
    (15 < (s.reg x).toNat ∧
        execSkp x s = .next (s.takeFault .keyIndex (some (encode (.skp x))) (some (s.reg x).toNat))) ∨
      ((s.reg x).toNat ≤ 15 ∧ execSkp x s = .next (s.skipIf (s.keyDown (s.reg x).toNat))) := by
  by_cases h : 15 < (s.reg x).toNat
  · exact .inl ⟨h, by simp [execSkp, h]⟩
  · exact .inr ⟨by omega, by simp [execSkp, h]⟩

theorem execSknp_cases (x : RegId) (s : State) :
    (15 < (s.reg x).toNat ∧
        execSknp x s = .next (s.takeFault .keyIndex (some (encode (.sknp x))) (some (s.reg x).toNat))) ∨
      ((s.reg x).toNat ≤ 15 ∧ execSknp x s = .next (s.skipIf (!s.keyDown (s.reg x).toNat))) := by
  by_cases h : 15 < (s.reg x).toNat
  · exact .inl ⟨h, by simp [execSknp, h]⟩
  · exact .inr ⟨by omega, by simp [execSknp, h]⟩

theorem execAddI_cases (x : RegId) (s : State) :
    (0xFFFF < s.I.toNat + (s.reg x).toNat ∧ execAddI x s =
        .next (s.takeFault .indexOverflow (some (encode (.addI x))) (some (s.I.toNat + (s.reg x).toNat)))) ∨
      (s.I.toNat + (s.reg x).toNat ≤ 0xFFFF ∧ execAddI x s =
        .next { s with I := BitVec.ofNat 16 (s.I.toNat + (s.reg x).toNat) }.pcPlus2) := by
  by_cases h : 0xFFFF < s.I.toNat + (s.reg x).toNat
  · exact .inl ⟨h, by simp [execAddI, h]⟩
  · exact .inr ⟨by omega, by simp [execAddI, h]⟩

theorem execLdF_cases (x : RegId) (s : State) :
    (15 < (s.reg x).toNat ∧
        execLdF x s = .next (s.takeFault .fontIndex (some (encode (.ldF x))) (some (s.reg x).toNat))) ∨
      ((s.reg x).toNat ≤ 15 ∧ execLdF x s =
        .next { s with I := BitVec.ofNat 16 (fontAddr (s.reg x).toNat) }.pcPlus2) := by
  by_cases h : 15 < (s.reg x).toNat
  · exact .inl ⟨h, by simp [execLdF, h]⟩
  · exact .inr ⟨by omega, by simp [execLdF, h]⟩

theorem execLdB_cases (x : RegId) (s : State) :
    (4096 ≤ s.I.toNat + 2 ∧
        execLdB x s = .next (s.takeFault .memBounds (some (encode (.ldB x))) (some (max s.I.toNat 4096)))) ∨
      (s.I.toNat + 2 < 4096 ∧ execLdB x s =
        .next { s with mem := s.mem.writeBytes s.I.toNat (bcdDigits (s.reg x)) }.pcPlus2) := by
  rcases badDataAddress_cases s.dataBase 3 with ⟨e, h⟩ | ⟨e, -, h⟩
  · exact .inr ⟨by simp [State.dataBase] at h; omega, by rw [execLdB, e]; rfl⟩
  · exact .inl ⟨by simp [State.dataBase] at h; omega, by rw [execLdB, e]; rfl⟩

theorem execLdMemVx_cases (x : RegId) (s : State) :
    (4096 ≤ s.I.toNat + x.val ∧
        execLdMemVx x s = .next (s.takeFault .memBounds (some (encode (.ldMemVx x))) (some (max s.I.toNat 4096)))) ∨
      (s.I.toNat + x.val < 4096 ∧ execLdMemVx x s =
        .next { s with mem := s.mem.writeBytes s.I.toNat (s.regsUpTo x) }.pcPlus2) := by
  rcases badDataAddress_cases s.dataBase (x.val + 1) with ⟨e, h⟩ | ⟨e, -, h⟩
  · exact .inr ⟨by simp [State.dataBase] at h; omega, by rw [execLdMemVx, e]; rfl⟩
  · exact .inl ⟨by simp [State.dataBase] at h; omega, by rw [execLdMemVx, e]; rfl⟩

theorem execLdVxMem_cases (x : RegId) (s : State) :
    (4096 ≤ s.I.toNat + x.val ∧
        execLdVxMem x s = .next (s.takeFault .memBounds (some (encode (.ldVxMem x))) (some (max s.I.toNat 4096)))) ∨
      (s.I.toNat + x.val < 4096 ∧ execLdVxMem x s = .next (s.loadRegsUpTo x s.I.toNat).pcPlus2) := by
  rcases badDataAddress_cases s.dataBase (x.val + 1) with ⟨e, h⟩ | ⟨e, -, h⟩
  · exact .inr ⟨by simp [State.dataBase] at h; omega, by rw [execLdVxMem, e]; rfl⟩
  · exact .inl ⟨by simp [State.dataBase] at h; omega, by rw [execLdVxMem, e]; rfl⟩

theorem execDrw_cases (x y : RegId) (n : Nibble) (s : State) :
    (0 < n.toNat ∧ 4096 < s.I.toNat + n.toNat ∧
        execDrw x y n s = .next (s.takeFault .memBounds (some (encode (.drw x y n))) (some (max s.I.toNat 4096)))) ∨
      ((n.toNat = 0 ∨ s.I.toNat + n.toNat ≤ 4096) ∧ execDrw x y n s =
        .next ({ s with
            fb := (s.drawSprite (s.reg x).toNat (s.reg y).toNat s.I.toNat n.toNat).fb
            dirty := true }.setReg 15
          (collisionFlag (s.drawSprite (s.reg x).toNat (s.reg y).toNat s.I.toNat n.toNat).collision)).pcPlus2) := by
  rcases badDataAddress_cases s.dataBase n.toNat with ⟨e, h⟩ | ⟨e, h, h'⟩
  · exact .inr ⟨h, by rw [execDrw, e]; rfl⟩
  · exact .inl ⟨h, h', by rw [execDrw, e]; rfl⟩

end Sys2Proof.Machine
end

