-- ==== Sys2Proof/Laws/PerInstr.lean ====
section
/-! SUPPORT. Statements made for each instruction as syntax, one lemma per constructor. -/

namespace Sys2Proof.Laws

/-- The word of an instruction has the fixed bits of its row of the opcode map (spec 30_encoding R85). -/
def EncodedInRow.Statement (i : Instr) : Prop := encode i &&& rowMask i = rowMatch i

theorem EncodedInRow.formatA (t : Nibble) (nnn : Addr12) :
    encA t nnn &&& (0xF000 : Word) = BitVec.ofNat 16 (t.toNat * 0x1000) :=
  mask_F000_eq (by have := nnn.isLt; rw [encA_toNat]; omega)

theorem EncodedInRow.formatXI (t : Nibble) (x : RegId) (nn : Byte) :
    encXI t x nn &&& (0xF000 : Word) = BitVec.ofNat 16 (t.toNat * 0x1000) :=
  mask_F000_eq (by have := x.isLt; have := nn.isLt; rw [encXI_toNat]; omega)

theorem EncodedInRow.formatXYN (t : Nibble) (x y : RegId) (n : Nibble) :
    encXY t x y n &&& (0xF000 : Word) = BitVec.ofNat 16 (t.toNat * 0x1000) :=
  mask_F000_eq (by have := x.isLt; have := y.isLt; have := n.isLt; rw [encXY_toNat]; omega)

theorem EncodedInRow.formatXY (t : Nibble) (x y : RegId) (n : Nibble) :
    encXY t x y n &&& (0xF00F : Word) = BitVec.ofNat 16 (t.toNat * 0x1000) ||| BitVec.ofNat 16 n.toNat :=
  mask_F00F_eq (by have := x.isLt; have := y.isLt; have := n.isLt; rw [encXY_toNat]; omega)
    (by have := n.isLt; rw [encXY_toNat]; omega)

theorem EncodedInRow.formatXF (t : Nibble) (x : RegId) (nn : Byte) :
    encXI t x nn &&& (0xF0FF : Word) = BitVec.ofNat 16 (t.toNat * 0x1000) ||| BitVec.ofNat 16 nn.toNat :=
  mask_F0FF_eq (by have := x.isLt; have := nn.isLt; rw [encXI_toNat]; omega)
    (by have := nn.isLt; rw [encXI_toNat]; omega)

theorem EncodedInRow.sys (nnn : Addr12) : EncodedInRow.Statement (.sys nnn) := EncodedInRow.formatA _ nnn

theorem EncodedInRow.cls : EncodedInRow.Statement .cls := by unfold EncodedInRow.Statement; decide

theorem EncodedInRow.ret : EncodedInRow.Statement .ret := by unfold EncodedInRow.Statement; decide

theorem EncodedInRow.jp (nnn : Addr12) : EncodedInRow.Statement (.jp nnn) := EncodedInRow.formatA _ nnn

theorem EncodedInRow.call (nnn : Addr12) : EncodedInRow.Statement (.call nnn) := EncodedInRow.formatA _ nnn

theorem EncodedInRow.seImm (x : RegId) (nn : Byte) : EncodedInRow.Statement (.seImm x nn) := EncodedInRow.formatXI _ x nn

theorem EncodedInRow.sneImm (x : RegId) (nn : Byte) : EncodedInRow.Statement (.sneImm x nn) := EncodedInRow.formatXI _ x nn

theorem EncodedInRow.seReg (x y : RegId) : EncodedInRow.Statement (.seReg x y) := EncodedInRow.formatXY _ x y _

theorem EncodedInRow.ldImm (x : RegId) (nn : Byte) : EncodedInRow.Statement (.ldImm x nn) := EncodedInRow.formatXI _ x nn

theorem EncodedInRow.addImm (x : RegId) (nn : Byte) : EncodedInRow.Statement (.addImm x nn) := EncodedInRow.formatXI _ x nn

theorem EncodedInRow.ldReg (x y : RegId) : EncodedInRow.Statement (.ldReg x y) := EncodedInRow.formatXY _ x y _

theorem EncodedInRow.orReg (x y : RegId) : EncodedInRow.Statement (.orReg x y) := EncodedInRow.formatXY _ x y _

theorem EncodedInRow.andReg (x y : RegId) : EncodedInRow.Statement (.andReg x y) := EncodedInRow.formatXY _ x y _

theorem EncodedInRow.xorReg (x y : RegId) : EncodedInRow.Statement (.xorReg x y) := EncodedInRow.formatXY _ x y _

theorem EncodedInRow.addReg (x y : RegId) : EncodedInRow.Statement (.addReg x y) := EncodedInRow.formatXY _ x y _

theorem EncodedInRow.subReg (x y : RegId) : EncodedInRow.Statement (.subReg x y) := EncodedInRow.formatXY _ x y _

theorem EncodedInRow.shr (x y : RegId) : EncodedInRow.Statement (.shr x y) := EncodedInRow.formatXY _ x y _

theorem EncodedInRow.subnReg (x y : RegId) : EncodedInRow.Statement (.subnReg x y) := EncodedInRow.formatXY _ x y _

theorem EncodedInRow.shl (x y : RegId) : EncodedInRow.Statement (.shl x y) := EncodedInRow.formatXY _ x y _

theorem EncodedInRow.sneReg (x y : RegId) : EncodedInRow.Statement (.sneReg x y) := EncodedInRow.formatXY _ x y _

theorem EncodedInRow.ldI (nnn : Addr12) : EncodedInRow.Statement (.ldI nnn) := EncodedInRow.formatA _ nnn

theorem EncodedInRow.jpV0 (nnn : Addr12) : EncodedInRow.Statement (.jpV0 nnn) := EncodedInRow.formatA _ nnn

theorem EncodedInRow.rnd (x : RegId) (nn : Byte) : EncodedInRow.Statement (.rnd x nn) := EncodedInRow.formatXI _ x nn

theorem EncodedInRow.drw (x y : RegId) (n : Nibble) : EncodedInRow.Statement (.drw x y n) := EncodedInRow.formatXYN _ x y n

theorem EncodedInRow.skp (x : RegId) : EncodedInRow.Statement (.skp x) := EncodedInRow.formatXF _ x _

theorem EncodedInRow.sknp (x : RegId) : EncodedInRow.Statement (.sknp x) := EncodedInRow.formatXF _ x _

theorem EncodedInRow.ldVxDT (x : RegId) : EncodedInRow.Statement (.ldVxDT x) := EncodedInRow.formatXF _ x _

theorem EncodedInRow.ldVxK (x : RegId) : EncodedInRow.Statement (.ldVxK x) := EncodedInRow.formatXF _ x _

theorem EncodedInRow.ldDTVx (x : RegId) : EncodedInRow.Statement (.ldDTVx x) := EncodedInRow.formatXF _ x _

theorem EncodedInRow.ldSTVx (x : RegId) : EncodedInRow.Statement (.ldSTVx x) := EncodedInRow.formatXF _ x _

theorem EncodedInRow.addI (x : RegId) : EncodedInRow.Statement (.addI x) := EncodedInRow.formatXF _ x _

theorem EncodedInRow.ldF (x : RegId) : EncodedInRow.Statement (.ldF x) := EncodedInRow.formatXF _ x _

theorem EncodedInRow.ldB (x : RegId) : EncodedInRow.Statement (.ldB x) := EncodedInRow.formatXF _ x _

theorem EncodedInRow.ldMemVx (x : RegId) : EncodedInRow.Statement (.ldMemVx x) := EncodedInRow.formatXF _ x _

theorem EncodedInRow.ldVxMem (x : RegId) : EncodedInRow.Statement (.ldVxMem x) := EncodedInRow.formatXF _ x _

end Sys2Proof.Laws
end

