-- ==== Sys2Proof/Tests/Slice0.lean ====
section
/-! SUPPORT. The model's own tests. Expected values are the spec's: the words from the patterns of 30_encoding R85, the steps
from the vectors of 95_test_vectors (their ids stand in the names), which start from the reset state with the listed changes.
The second half shows, for every statement with hypotheses, concrete states and operands that meet them. -/

namespace Sys2Proof.Tests

open Sys2Proof.Machine

/-- One step of `s` on the word `op` answers a next state of which `p` holds. -/
def holdsAfter (s : State) (op : Nat) (p : State → Bool) : Bool :=
  match step (s.withFetchWord 16 op) with
  | .next t => p t
  | _ => false

/-- The event `e` answers a next state of which `p` holds. -/
def holdsAfterEvent (s : State) (e : HostEvent) (p : State → Bool) : Bool :=
  match applyEvent e s with
  | .next t => p t
  | _ => false

/-- The reset state with the listed registers changed. -/
def regs (l : List (RegId × Byte)) : State := l.foldl (fun s e => s.setReg e.1 e.2) State.reset

/-- The reset state with the bytes at the address. -/
def bytesAt (a : Nat) (bs : List Byte) (s : State) : State := { s with mem := s.mem.writeBytes a bs }

/-- The state is Faulted with this record. -/
def faultIs (t : State) (c : FaultCause) (op : Option Word) (pc : Word) (info : Option Nat) : Bool :=
  t.status == .faulted && t.fault == some ⟨c, op, pc, info⟩

/-- A framebuffer that is dark but for the listed rows. -/
def rows (l : List (Fin 32 × BitVec 64)) : Framebuffer := l.foldl (fun f e => f.set e.1.val e.2) Framebuffer.clear

/-! ## WellFormed -/

theorem test_wellFormed_refuses_the_word_of_cls_as_sys : (Instr.sys 0x0E0).wellFormed = false := by decide
theorem test_wellFormed_refuses_the_word_of_ret_as_sys : (Instr.sys 0x0EE).wellFormed = false := by decide
theorem test_wellFormed_accepts_the_neighbours : (Instr.sys 0x0E1).wellFormed = true ∧ (Instr.sys 0x0ED).wellFormed = true := by
  decide

/-! ## Decode: a word for every constructor, written out from R85's patterns -/

theorem test_decode_family0 :
    decodeOp 0x00E0 = .ok .cls ∧ decodeOp 0x00EE = .ok .ret ∧ decodeOp 0x0123 = .ok (.sys 0x123) := by decide
theorem test_decode_jumps :
    decodeOp 0x1234 = .ok (.jp 0x234) ∧ decodeOp 0x2ABC = .ok (.call 0xABC) ∧ decodeOp 0xB300 = .ok (.jpV0 0x300) := by decide
theorem test_decode_skips :
    decodeOp 0x332A = .ok (.seImm 3 0x2A) ∧ decodeOp 0x43F1 = .ok (.sneImm 3 0xF1) ∧
    decodeOp 0x5120 = .ok (.seReg 1 2) ∧ decodeOp 0x9120 = .ok (.sneReg 1 2) := by decide
theorem test_decode_immediates :
    decodeOp 0x6A42 = .ok (.ldImm 10 0x42) ∧ decodeOp 0x70FF = .ok (.addImm 0 0xFF) ∧ decodeOp 0xC40F = .ok (.rnd 4 0x0F) := by
  decide
theorem test_decode_family8_plain :
    decodeOp 0x8120 = .ok (.ldReg 1 2) ∧ decodeOp 0x8121 = .ok (.orReg 1 2) ∧ decodeOp 0x8122 = .ok (.andReg 1 2) ∧
    decodeOp 0x8123 = .ok (.xorReg 1 2) := by decide
theorem test_decode_family8_flags :
    decodeOp 0x8124 = .ok (.addReg 1 2) ∧ decodeOp 0x8125 = .ok (.subReg 1 2) ∧ decodeOp 0x8126 = .ok (.shr 1 2) ∧
    decodeOp 0x8127 = .ok (.subnReg 1 2) ∧ decodeOp 0x812E = .ok (.shl 1 2) := by decide
theorem test_decode_index_and_memory :
    decodeOp 0xA2F0 = .ok (.ldI 0x2F0) ∧ decodeOp 0xF11E = .ok (.addI 1) ∧ decodeOp 0xF229 = .ok (.ldF 2) ∧
    decodeOp 0xF333 = .ok (.ldB 3) ∧ decodeOp 0xFF55 = .ok (.ldMemVx 15) ∧ decodeOp 0xF165 = .ok (.ldVxMem 1) := by decide
theorem test_decode_draw : decodeOp 0xD125 = .ok (.drw 1 2 5) := by decide
theorem test_decode_keys_and_timers :
    decodeOp 0xE59E = .ok (.skp 5) ∧ decodeOp 0xE5A1 = .ok (.sknp 5) ∧ decodeOp 0xF207 = .ok (.ldVxDT 2) ∧
    decodeOp 0xF30A = .ok (.ldVxK 3) ∧ decodeOp 0xF215 = .ok (.ldDTVx 2) ∧ decodeOp 0xF218 = .ok (.ldSTVx 2) := by decide
/-- K9, K10, A28, T6, T18. -/
theorem test_decode_rejects :
    decodeOp 0x5121 = .reject .undefinedFamily5 ∧ decodeOp 0x9121 = .reject .undefinedFamily9 ∧
    decodeOp 0x8128 = .reject .undefinedFamily8 ∧ decodeOp 0x812F = .reject .undefinedFamily8 ∧
    decodeOp 0xE09F = .reject .undefinedFamilyE ∧ decodeOp 0xF000 = .reject .undefinedFamilyF ∧
    decodeOp 0xF075 = .reject .undefinedFamilyF := by decide
/-- R53: the byte at the lower address is the high byte. -/
theorem test_decode_bytes_big_endian :
    decodeBytes [0xD1, 0x25] = .ok (.drw 1 2 5) ∧ decodeBytes [0xD1] = .reject .tooFewBytes ∧
    decodeTableWord 16 0xD125 = some (.drw 1 2 5) ∧ decodeTableWord 16 0x8128 = none := by decide

/-! ## One step per vector of 95_test_vectors -/

theorem test_F1_jp : holdsAfter State.reset 0x1234 (fun t => t.pc == 0x234) = true := by decide
theorem test_F3_call :
    holdsAfter State.reset 0x2300 (fun t => t.stack[0] == 0x200 && t.SP == 1 && t.pc == 0x300) = true := by decide
theorem test_F4_call_overflow :
    holdsAfter { State.reset with SP := 16 } 0x2300
      (fun t => faultIs t .stackOverflow (some 0x2300) 0x200 (some 16) && t.SP == 16 && t.pc == 0x200) = true := by decide
theorem test_F5_ret :
    holdsAfter { State.reset with pc := 0x300, SP := 1, stack := State.reset.stack.set 0 0x200 } 0x00EE
      (fun t => t.SP == 0 && t.pc == 0x202) = true := by decide
theorem test_F6_ret_underflow :
    holdsAfter State.reset 0x00EE (fun t => faultIs t .stackUnderflow (some 0x00EE) 0x200 (some 0)) = true := by decide
theorem test_F7_jpV0 : holdsAfter (regs [(0, 0x04)]) 0xB300 (fun t => t.pc == 0x304) = true := by decide
theorem test_F8_jpV0_past_memory : holdsAfter (regs [(0, 0xFF)]) 0xBFFF (fun t => t.pc == 0x10FE) = true := by decide
theorem test_F8_fetch_there :
    holdsAfterEvent { State.reset with pc := 0x10FE } .cycle
      (fun t => faultIs t .fetchBounds none 0x10FE (some 0x10FE)) = true := by decide
theorem test_F2_fetch_at_the_last_byte :
    holdsAfterEvent { State.reset with pc := 0xFFF } .cycle
      (fun t => faultIs t .fetchBounds none 0xFFF (some 4096)) = true := by decide
theorem test_F9_sys :
    holdsAfter { State.reset with DT := 5 } 0x0123
      (fun t => faultIs t .decodeError (some 0x0123) 0x200 none && t.DT == 5) = true := by decide
theorem test_F11_last_word :
    holdsAfter { State.reset with pc := 0xFFE } 0x6011 (fun t => t.reg 0 == 0x11 && t.pc == 0x1000) = true := by decide

theorem test_K1_seImm : holdsAfter (regs [(3, 0x2A)]) 0x332A (fun t => t.pc == 0x204) = true := by decide
theorem test_K3_sneImm : holdsAfter (regs [(3, 0x2A)]) 0x432A (fun t => t.pc == 0x202) = true := by decide
theorem test_K5_seReg : holdsAfter (regs [(1, 7), (2, 7)]) 0x5120 (fun t => t.pc == 0x204) = true := by decide
theorem test_K7_sneReg : holdsAfter (regs [(1, 7), (2, 8)]) 0x9120 (fun t => t.pc == 0x204) = true := by decide
theorem test_K9_undefined :
    holdsAfter State.reset 0x5121 (fun t => faultIs t .decodeError (some 0x5121) 0x200 none) = true := by decide
theorem test_K11_skip_past_memory :
    holdsAfter { State.reset with pc := 0xFFC } 0x3000 (fun t => t.pc == 0x1000) = true := by decide

theorem test_A19_ldImm : holdsAfter State.reset 0x6A42 (fun t => t.reg 10 == 0x42) = true := by decide
theorem test_A17_addImm :
    holdsAfter (regs [(0, 1), (15, 0x55)]) 0x70FF (fun t => t.reg 0 == 0 && t.reg 15 == 0x55) = true := by decide
theorem test_A20_ldReg : holdsAfter (regs [(2, 0x33)]) 0x8120 (fun t => t.reg 1 == 0x33) = true := by decide
theorem test_A21_orReg :
    holdsAfter (regs [(1, 0xF0), (2, 0x0F), (15, 0x55)]) 0x8121 (fun t => t.reg 1 == 0xFF && t.reg 15 == 0x55) = true := by
  decide
theorem test_A22_andReg : holdsAfter (regs [(1, 0xF3), (2, 0x3F)]) 0x8122 (fun t => t.reg 1 == 0x33) = true := by decide
theorem test_A23_xorReg : holdsAfter (regs [(1, 0xFF), (2, 0x0F)]) 0x8123 (fun t => t.reg 1 == 0xF0) = true := by decide
theorem test_A1_addReg :
    holdsAfter (regs [(1, 0xC8), (2, 0x64)]) 0x8124 (fun t => t.reg 1 == 0x2C && t.reg 15 == 1) = true := by decide
theorem test_A5_addReg_into_VF : holdsAfter (regs [(15, 0xF0), (2, 0x20)]) 0x8F24 (fun t => t.reg 15 == 0x10) = true := by
  decide
theorem test_A8_subReg :
    holdsAfter (regs [(1, 0x0A), (2, 0x0B)]) 0x8125 (fun t => t.reg 1 == 0xFF && t.reg 15 == 0) = true := by decide
theorem test_A9_subReg_equal :
    holdsAfter (regs [(1, 5), (2, 5), (15, 9)]) 0x8125 (fun t => t.reg 1 == 0 && t.reg 15 == 1) = true := by decide
theorem test_A12_subnReg :
    holdsAfter (regs [(1, 5), (2, 3), (15, 9)]) 0x8127 (fun t => t.reg 1 == 0xFE && t.reg 15 == 0) = true := by decide
theorem test_A14_shr :
    holdsAfter (regs [(1, 0x81), (2, 0xFF)]) 0x8126 (fun t => t.reg 1 == 0x40 && t.reg 15 == 1 && t.reg 2 == 0xFF) = true := by
  decide
theorem test_A15_shl :
    holdsAfter (regs [(1, 0x81), (2, 0xFF)]) 0x812E (fun t => t.reg 1 == 0x02 && t.reg 15 == 1 && t.reg 2 == 0xFF) = true := by
  decide
/-- A25, A26, A27: the byte is drawn by the host, so the vectors are of the operation that masks it. -/
theorem test_A25_rnd_masks :
    rndResult 0xFF 0xA7 0x0F = 0x07 ∧ rndResult 0x00 0xA7 0xFF = 0x00 ∧ rndResult 0x3C 0xA7 0xF0 = 0x20 := by decide
theorem test_rnd_completes :
    holdsAfter (regs [(4, 0xFF)]) 0xC40F (fun t => t.pc == 0x202 && t.rndDraws == 1 && t.status == .running) = true := by decide

theorem test_M1_ldI : holdsAfter State.reset 0xA2F0 (fun t => t.I == 0x2F0) = true := by decide
theorem test_M2_addI : holdsAfter { regs [(1, 5)] with I := 0xFFE } 0xF11E (fun t => t.I == 0x1003) = true := by decide
theorem test_M4_addI_overflow :
    holdsAfter { regs [(1, 1)] with I := 0xFFFF } 0xF11E
      (fun t => faultIs t .indexOverflow (some 0xF11E) 0x200 (some 0x10000) && t.I == 0xFFFF) = true := by decide
theorem test_M5_ldF : holdsAfter (regs [(2, 0x0A)]) 0xF229 (fun t => t.I == 0x82) = true := by decide
theorem test_M7_ldF_no_such_glyph :
    holdsAfter (regs [(2, 0x10)]) 0xF229 (fun t => faultIs t .fontIndex (some 0xF229) 0x200 (some 0x10)) = true := by decide
theorem test_M8_ldB :
    holdsAfter { regs [(3, 0x9C)] with I := 0x300 } 0xF333 (fun t => t.mem.readBytes 0x300 3 == [1, 5, 6]) = true := by decide
theorem test_M10_ldB_out_of_memory :
    holdsAfter { regs [(3, 0xFF)] with I := 0xFFE } 0xF333
      (fun t => faultIs t .memBounds (some 0xF333) 0x200 (some 4096) && t.mem.readBytes 0xFFE 2 == [0, 0]) = true := by decide
theorem test_M13_ldMemVx :
    holdsAfter { regs [(0, 0xAA), (15, 0xBB)] with I := 0xFF0 } 0xFF55
      (fun t => t.mem.read 0xFF0 == 0xAA && t.mem.read 0xFFF == 0xBB && t.I == 0xFF0) = true := by decide
theorem test_M14_ldMemVx_out_of_memory :
    holdsAfter { regs [(0, 0xAA)] with I := 0xFF1 } 0xFF55
      (fun t => faultIs t .memBounds (some 0xFF55) 0x200 (some 4096) && t.mem.read 0xFF1 == 0) = true := by decide
theorem test_M15_ldVxMem :
    holdsAfter { bytesAt 0x400 [0xAA, 0xBB, 0xCC] State.reset with I := 0x400 } 0xF165
      (fun t => t.reg 0 == 0xAA && t.reg 1 == 0xBB && t.reg 2 == 0 && t.I == 0x400) = true := by decide
theorem test_M16_ldVxMem_out_of_memory :
    holdsAfter { State.reset with I := 0x1000 } 0xF065
      (fun t => faultIs t .memBounds (some 0xF065) 0x200 (some 0x1000)) = true := by decide

theorem test_D1_cls :
    holdsAfter { State.reset with fb := rows [(0, 0x21), (31, 0x8000000000000000)] } 0x00E0
      (fun t => t.fb == Framebuffer.clear && t.dirty) = true := by decide
theorem test_D4_drw_clips :
    holdsAfter { bytesAt 0x300 [0xFF, 0xFF, 0xFF] (regs [(1, 0x3E), (2, 0x1F)]) with I := 0x300 } 0xD123
      (fun t => t.fb == rows [(31, 0xC000000000000000)] && t.reg 15 == 0 && t.dirty) = true := by decide
theorem test_D9_drw_collides :
    holdsAfter { bytesAt 0x300 [0xC0] State.reset with I := 0x300, fb := rows [(0, 0x6)] } 0xD121
      (fun t => t.fb == rows [(0, 0x5)] && t.reg 15 == 1) = true := by decide

theorem test_T1_skp :
    holdsAfter { regs [(5, 0x0A)] with keys := 0x0400 } 0xE59E (fun t => t.pc == 0x204) = true := by decide
theorem test_T5_skp_no_such_key :
    holdsAfter (regs [(5, 0x10)]) 0xE59E (fun t => faultIs t .keyIndex (some 0xE59E) 0x200 (some 0x10)) = true := by decide
theorem test_T4_sknp :
    holdsAfter { regs [(5, 0x0A)] with keys := 0x0400 } 0xE5A1 (fun t => t.pc == 0x202) = true := by decide
theorem test_T7_ldVxDT :
    holdsAfter { State.reset with DT := 0x10 } 0xF207 (fun t => t.reg 2 == 0x10 && t.DT == 0x0F) = true := by decide
theorem test_T8_ldDTVx : holdsAfter (regs [(2, 0x3C)]) 0xF215 (fun t => t.DT == 0x3B) = true := by decide
theorem test_T10_ldSTVx : holdsAfter (regs [(2, 1)]) 0xF218 (fun t => t.ST == 0 && !t.soundActive) = true := by decide
theorem test_T11_ldSTVx_sounds : holdsAfter (regs [(2, 5)]) 0xF218 (fun t => t.ST == 4 && t.soundActive) = true := by decide
theorem test_S8_ldVxK_waits :
    holdsAfter { State.reset with DT := 9, ST := 3 } 0xF30A
      (fun t => t.status == .awaitingKey && t.keyTarget == 3 && t.pc == 0x200 && t.DT == 9 && t.ST == 3) = true := by decide

/-! ## Events -/

theorem test_S8_keyPress :
    holdsAfterEvent { State.reset with status := .awaitingKey, keyTarget := 3, phase := .executing, DT := 9 } (.keyPress 0xB)
      (fun t => t.reg 3 == 0x0B && t.pc == 0x202 && t.status == .running && t.DT == 9) = true := by decide
theorem test_T15_keyPress_ignored :
    holdsAfterEvent State.reset (.keyPress 3) (fun t => t == State.reset) = true := by decide
theorem test_T16_consumeDirty :
    holdsAfterEvent { State.reset with dirty := true } .consumeDirty (fun t => t == State.reset) = true := by decide
theorem test_T17_setKeys :
    holdsAfterEvent State.reset (.setKeys 0x0404) (fun t => t == { State.reset with keys := 0x0404 }) = true := by decide
theorem test_S6_loadRom :
    holdsAfterEvent State.reset (.loadRom [0xA1, 0x23]) (fun t => t.mem == [(0x200, 0xA1), (0x201, 0x23)]) = true := by decide
/-- Loading a zero leaves nothing listed: memory keeps one form. -/
theorem test_memory_is_canonical :
    State.reset.mem.writeBytes 0x050 [0xF0, 0x91] = [(0x051, 0x91)] ∧
    Memory.write [(0x051, 0x91)] 0x051 0x90 = [] := by decide

/-! ## Witnesses: every statement's hypotheses are met, each clause at the bounds of its range -/

/-- A state in which a cycle executes the word `op`. -/
def ready (op : Nat) : State := State.reset.withFetchWord 16 op

theorem witness_DecodeInvertsEncode : (Instr.drw 15 0 15).wellFormed = true ∧ (Instr.sys 0xFFF).wellFormed = true := by decide
theorem witness_EncodeInvertsDecode : decodeOp 0xDF0F = .ok (.drw 15 0 15) := by decide
theorem witness_SysRaisesDecodeError : (0x0E1 : Addr12) ≠ 0x0E0 ∧ (0x0E1 : Addr12) ≠ 0x0EE := by decide

theorem witness_RetPopsOrUnderflows :
    State.reset.SP.val = 0 ∧ ({ State.reset with SP := 1 } : State).SP.val = 0 + 1 ∧
    ({ State.reset with SP := 16 } : State).SP.val = 15 + 1 ∧
    (({ State.reset with SP := 16, stack := State.reset.stack.set 15 0xFFE } : State).stack[15]).toNat ≤ 0xFFE := by decide

theorem witness_CallPushesOrOverflows :
    ({ State.reset with SP := 16 } : State).SP.val = 16 ∧ ({ State.reset with SP := 15 } : State).SP.val < 16 ∧
    State.reset.SP.val < 16 := by decide

theorem witness_ReturnContinuesAfterItsCall :
    ({ State.reset with SP := 15, pc := 0xFFE } : State).SP.val < 16 ∧
    ({ State.reset with SP := 15, pc := 0xFFE } : State).pc.toNat ≤ 0xFFE := by decide

theorem witness_SkipsCompareAndSkip :
    (regs [(1, 7), (2, 7)]).reg 1 = (7 : Byte) ∧ (regs [(1, 7), (2, 7)]).reg 1 = (regs [(1, 7), (2, 7)]).reg 2 ∧
    (regs [(1, 7), (2, 8)]).reg 1 ≠ (8 : Byte) ∧ (regs [(1, 7), (2, 8)]).reg 1 ≠ (regs [(1, 7), (2, 8)]).reg 2 := by decide

theorem witness_AddWritesCarryThenSum :
    ((regs [(1, 0xFF), (2, 0)]).reg 1).toNat + ((regs [(1, 0xFF), (2, 0)]).reg 2).toNat = 255 ∧
    ((regs [(1, 0xFF), (2, 1)]).reg 1).toNat + ((regs [(1, 0xFF), (2, 1)]).reg 2).toNat = 256 ∧ (14 : RegId) ≠ 15 := by decide

theorem witness_AddToIndexOrOverflow :
    ({ regs [(1, 0xFF)] with I := 0xFF01 } : State).I.toNat + (({ regs [(1, 0xFF)] with I := 0xFF01 } : State).reg 1).toNat
      = 0xFFFF + 1 ∧
    ({ regs [(1, 0xFF)] with I := 0xFF00 } : State).I.toNat + (({ regs [(1, 0xFF)] with I := 0xFF00 } : State).reg 1).toNat
      = 0xFFFF := by decide

theorem witness_FontPointerOrFontIndex :
    ((regs [(2, 0x10)]).reg 2).toNat > 15 ∧ ((regs [(2, 0x0F)]).reg 2).toNat ≤ 15 := by decide

theorem witness_BcdStoreOrMemBounds :
    State.reset.mem.wf = true ∧ ({ State.reset with I := 0xFFE } : State).I.toNat + 2 = 4096 ∧
    ({ State.reset with I := 0xFFD } : State).I.toNat + 2 < 4096 := by decide

theorem witness_RegisterDumpOrMemBounds :
    (bytesAt 0x400 [1, 2] State.reset).mem.wf = true ∧ ({ State.reset with I := 0xFF1 } : State).I.toNat + (15 : RegId).val = 4096 ∧
    ({ State.reset with I := 0xFF0 } : State).I.toNat + (15 : RegId).val = 4095 := by decide

theorem witness_RegisterLoadOrMemBounds :
    ({ State.reset with I := 0x1000 } : State).I.toNat + (0 : RegId).val ≥ 4096 ∧
    ({ State.reset with I := 0xFFF } : State).I.toNat + (0 : RegId).val < 4096 := by decide

/-- The fault clause and the other one meet between I = 0xFFF with one row and with two; no row never faults. -/
theorem witness_DrawInvertsTheCellsUnderTheSprite :
    ((2 : Nibble).toNat > 0 ∧ ({ State.reset with I := 0xFFF } : State).I.toNat + (2 : Nibble).toNat - 1 ≥ 4096) ∧
    ¬ ((1 : Nibble).toNat > 0 ∧ ({ State.reset with I := 0xFFF } : State).I.toNat + (1 : Nibble).toNat - 1 ≥ 4096) ∧
    ¬ ((0 : Nibble).toNat > 0 ∧ ({ State.reset with I := 0x2000 } : State).I.toNat + (0 : Nibble).toNat - 1 ≥ 4096) := by decide

/-- A lit cell under a 1 bit of the sprite, in the last corner of the screen; and a sprite over a dark screen. -/
theorem witness_DrawInvertsTheCellsUnderTheSprite_collision :
    (∃ px py, px < 64 ∧ py < 32 ∧ (rows [(31, 0x8000000000000000)]).cell (py * 64 + px) = true ∧
      spriteBit [] 0x050 5 63 31 px py = true) ∧
    (¬ ∃ px py, px < 64 ∧ py < 32 ∧ Framebuffer.clear.cell (py * 64 + px) = true ∧
      spriteBit [] 0x050 5 63 31 px py = true) := by
  refine ⟨⟨63, 31, by decide⟩, ?_⟩
  rintro ⟨px, py, hx, hy, h, -⟩
  rw [Framebuffer.cell, show (py * 64 + px) / 64 = py by omega] at h
  simp [Framebuffer.pixel, Framebuffer.clear] at h

theorem witness_SecondDrawUndoesTheFirst :
    (0 : RegId) ≠ 15 ∧ ({ State.reset with I := 0xFFB } : State).I.toNat + (5 : Nibble).toNat ≤ 4096 ∧
    State.reset.fb = Framebuffer.clear ∧
    ∃ px py, px < 64 ∧ py < 32 ∧ spriteBit State.reset.mem 0x050 5 0 0 px py = true :=
  ⟨by decide, by decide, by decide, 0, 0, by decide⟩

theorem witness_KeySkipsOrKeyIndex :
    ((regs [(5, 0x10)]).reg 5).toNat > 15 ∧ ((regs [(5, 0x0F)]).reg 5).toNat ≤ 15 ∧
    ({ State.reset with keys := 0x8000 } : State).keys.getLsbD 15 = true ∧ State.reset.keys.getLsbD 15 = false := by decide

theorem witness_ready (op : Nat) : ReadyToCycle (ready op) := ⟨by simp [ready, State.withFetchWord, State.aboutToRun, State.reset],
  rfl, rfl⟩

theorem witness_KeyReadWaits : ReadyToCycle (ready 0xF30A) ∧ WordAtPc (ready 0xF30A) (encode (.ldVxK 3)) :=
  ⟨witness_ready _, by unfold WordAtPc; decide⟩

theorem witness_TimerMoves :
    ReadyToCycle (ready 0xF215) ∧ WordAtPc (ready 0xF215) (encode (.ldDTVx 2)) ∧
    ReadyToCycle (ready 0xF218) ∧ WordAtPc (ready 0xF218) (encode (.ldSTVx 2)) ∧
    ReadyToCycle (ready 0xF207) ∧ WordAtPc (ready 0xF207) (encode (.ldVxDT 2)) := by
  refine ⟨witness_ready _, ?_, witness_ready _, ?_, witness_ready _, ?_⟩ <;> (unfold WordAtPc; decide)

/-- A word that leaves the status Running, and one that does not. -/
theorem witness_StepRunsTheDecodedInstruction :
    (ReadyToCycle (ready 0xA123) ∧ WordAtPc (ready 0xA123) 0xA123 ∧ decodeOp 0xA123 = .ok (.ldI 0x123) ∧
      exec (.ldI 0x123) { ready 0xA123 with phase := .executing } =
        .next { ready 0xA123 with phase := .executing, I := 0x123, pc := 0x202 } ∧
      ({ ready 0xA123 with phase := .executing, I := 0x123, pc := 0x202 } : State).status = .running) ∧
    (ReadyToCycle (ready 0xF30A) ∧ WordAtPc (ready 0xF30A) 0xF30A ∧ decodeOp 0xF30A = .ok (.ldVxK 3) ∧
      exec (.ldVxK 3) { ready 0xF30A with phase := .executing } =
        .next { ready 0xF30A with phase := .executing, keyTarget := 3, status := .awaitingKey }) := by
  refine ⟨⟨witness_ready _, ?_, by decide, rfl, rfl⟩, witness_ready _, ?_, by decide, rfl⟩ <;> (unfold WordAtPc; decide)

/-- The hypotheses of the tick's general clause are those of `StepRunsTheDecodedInstruction`; here with timers at 0, 1 and
255. -/
theorem witness_TimersTickAfterExecute :
    ReadyToCycle { ready 0xF215 with DT := 1, ST := 0xFF } ∧
    WordAtPc { ready 0xF215 with DT := 1, ST := 0xFF } (encode (.ldDTVx 2)) ∧
    decodeOp (encode (.ldDTVx 2)) = .ok (.ldDTVx 2) ∧
    exec (.ldDTVx 2) { ready 0xF215 with DT := 1, ST := 0xFF, phase := .executing } =
      .next { ready 0xF215 with DT := 0, ST := 0xFF, phase := .executing, pc := 0x202 } := by
  refine ⟨⟨(witness_ready 0xF215).1, rfl, rfl⟩, ?_, by decide, rfl⟩
  unfold WordAtPc
  decide

/-- Cycles that do not leave the status Running: an FX0A, a fault in the fetch, in Decode and in Execute, a cycle in
AwaitingKey and one in Faulted; and one that does. -/
theorem witness_TimersTickAfterExecute_every_cycle :
    (∀ s ∈ [ready 0xF30A, { State.reset with pc := 0xFFF }, ready 0x8128, ready 0x00EE, { State.reset with status := .awaitingKey },
      { State.reset with status := .faulted }], holdsAfterEvent s .cycle (fun t => t.status != .running) = true) ∧
    holdsAfterEvent (ready 0xA123) .cycle (fun t => t.status == .running) = true := by decide

theorem witness_UndefinedWordRaisesDecodeError :
    ReadyToCycle (ready 0x8128) ∧ WordAtPc (ready 0x8128) 0x8128 ∧ decodeOp 0x8128 = .reject .undefinedFamily8 := by
  refine ⟨witness_ready _, ?_, by decide⟩
  unfold WordAtPc
  decide

theorem witness_FetchSucceedsOrRaisesFetchBounds :
    ({ State.reset with pc := 0xFFE } : State).fetch = .ok 0 ∧
    (ReadyToCycle { State.reset with pc := 0xFFF } ∧ ({ State.reset with pc := 0xFFF } : State).pc.toNat > 0xFFE) ∧
    (ReadyToCycle { State.reset with pc := 0x1000 } ∧ ({ State.reset with pc := 0x1000 } : State).pc.toNat > 0xFFE) := by
  refine ⟨rfl, ⟨⟨?_, rfl, rfl⟩, ?_⟩, ⟨?_, rfl, rfl⟩, ?_⟩ <;> decide

theorem witness_CycleWhileWaitingOrFaultedChangesNothing :
    (({ State.reset with status := .faulted } : State).phase ≠ .unreset ∧
      ({ State.reset with status := .faulted } : State).status ≠ .running) ∧
    ({ State.reset with status := .awaitingKey } : State).status ≠ .running := by decide

/-- The first cycle after reset with nothing loaded. -/
theorem witness_FaultingCycleHasNoOtherEffect :
    State.reset.phase ≠ .unreset ∧ State.reset.status = .running ∧
    ∃ t, applyEvent .cycle State.reset = .next t ∧ t.status = .faulted := ⟨by decide, rfl, _, rfl, rfl⟩

theorem witness_FaultsAreExactlyThoseOfTheTable :
    State.reset.status = .running ∧ tableFault .ret State.reset = some (.stackUnderflow, some 0) ∧
    tableFault .ret { State.reset with SP := 1 } = none ∧
    tableFault (.drw 0 0 1) { State.reset with I := 0x1000 } = some (.memBounds, some 4096) ∧
    tableFault (.drw 0 0 0) { State.reset with I := 0x1000 } = none := by decide

theorem witness_EveryCycleAnswersANextState : State.reset.phase ≠ .unreset := by decide

/-- Each clause's premise is met: an instruction that changes the element. -/
theorem witness_EachElementHasOnlyItsOwnWriters :
    (∃ t, exec .cls State.reset = .next t ∧ ¬ DisplayKept State.reset t) ∧
    (∃ t, exec (.call 0x300) State.reset = .next t ∧ ¬ StackKept State.reset t) ∧
    (∃ t, exec (.ldMemVx 0) { regs [(0, 1)] with I := 0xFFF } = .next t ∧ ¬ MemKept { regs [(0, 1)] with I := 0xFFF } t) ∧
    (∃ t, exec (.ldI 1) State.reset = .next t ∧ t.I ≠ State.reset.I) ∧
    (∃ t, exec (.ldDTVx 2) (regs [(2, 1)]) = .next t ∧ t.DT ≠ (regs [(2, 1)]).DT) ∧
    (∃ t, exec (.ldSTVx 2) (regs [(2, 1)]) = .next t ∧ t.ST ≠ (regs [(2, 1)]).ST) ∧
    (∃ t, exec (.ldVxK 1) State.reset = .next t ∧ t.keyTarget ≠ State.reset.keyTarget) ∧
    (∃ t, exec (.rnd 1 0) State.reset = .next t ∧ t.rndDraws ≠ State.reset.rndDraws) := by
  refine ⟨⟨_, rfl, ?_⟩, ⟨_, rfl, ?_⟩, ⟨_, rfl, fun h => ?_⟩, ⟨_, rfl, ?_⟩, ⟨_, rfl, ?_⟩, ⟨_, rfl, ?_⟩, ⟨_, rfl, ?_⟩, ⟨_, rfl, ?_⟩⟩
  · unfold DisplayKept; decide
  · unfold StackKept; decide
  · exact absurd (h 0xFFF) (by decide)
  all_goals decide

/-- The same for a register, for both clauses on pc, and for the status and the record of a fault. -/
theorem witness_EachElementHasOnlyItsOwnWriters_registers_and_status :
    (∃ t, exec (.ldImm 15 1) State.reset = .next t ∧ t.reg 15 ≠ State.reset.reg 15) ∧
    (∃ t, exec .ret { State.reset with SP := 16 } = .next t ∧ tableFault .ret { State.reset with SP := 16 } = none) ∧
    (∃ t, exec .ret State.reset = .next t ∧ tableFault .ret State.reset ≠ none ∧
      t.status ≠ State.reset.status ∧ t.fault ≠ State.reset.fault) ∧
    (∃ t, exec (.ldVxK 1) State.reset = .next t ∧ t.status ≠ State.reset.status) :=
  ⟨⟨_, rfl, by decide⟩, ⟨_, rfl, by decide⟩, ⟨_, rfl, by decide, by decide, by decide⟩, _, rfl, by decide⟩

theorem witness_FlagRegisterHasOnlyItsOwnWriters :
    ∃ t, exec (.shr 1 2) (regs [(1, 1)]) = .next t ∧ t.reg 15 ≠ (regs [(1, 1)]).reg 15 := ⟨_, rfl, by decide⟩

/-- Running to AwaitingKey, AwaitingKey to Running, Faulted to Running, and Faulted to Faulted. -/
theorem witness_StatusTransitions :
    (∃ t, applyEvent .cycle (ready 0xF30A) = .next t ∧ (ready 0xF30A).status = .running ∧ t.status = .awaitingKey) ∧
    (∃ t, applyEvent (.keyPress 1) { State.reset with status := .awaitingKey } = .next t ∧ t.status = .running) ∧
    (∃ t, applyEvent .reset { State.reset with status := .faulted } = .next t ∧ t.status ≠ .faulted) ∧
    (∃ t, applyEvent .cycle { State.reset with status := .faulted } = .next t ∧ t.status = .faulted) :=
  ⟨⟨_, rfl, rfl, rfl⟩, ⟨_, rfl, rfl⟩, ⟨_, rfl, by decide⟩, _, rfl, rfl⟩

theorem witness_StoredBytesAreFetched :
    State.reset.mem.wf = true ∧ 1 ≤ (1 : RegId).val ∧ ({ State.reset with I := 0xFFE } : State).I.toNat + (1 : RegId).val < 4096 := by
  decide

theorem witness_ResetGivesEveryElementItsResetValue :
    (0x04F < 4096 ∧ 0x04F < 0x050) ∧ (0x0A0 < 4096 ∧ 0x0A0 ≤ 0x0A0) ∧
    ∃ t, applyEvent .reset { State.reset with status := .faulted } = .next t ∧ t.status ≠ .faulted :=
  ⟨by decide, by decide, _, rfl, by decide⟩

theorem witness_EventsBeforeTheFirstResetAreRefused :
    ({ State.reset with phase := .unreset } : State).phase = .unreset ∧ HostEvent.cycle ≠ .reset ∧
    HostEvent.loadRom [] ≠ .reset ∧ HostEvent.setKeys 0 ≠ .reset ∧ HostEvent.keyPress 0 ≠ .reset ∧
    HostEvent.consumeDirty ≠ .reset := by decide

theorem witness_LoadRomCopiesOrRefuses :
    State.reset.phase = .boot ∧ State.reset.mem.wf = true ∧ (List.replicate 3584 (0xFF : Byte)).length ≤ 3584 ∧
    3584 < (List.replicate 3585 (0xFF : Byte)).length ∧ ({ State.reset with phase := .executing } : State).phase ≠ .boot ∧
    (∃ t, applyEvent .reset State.reset = .next t) ∧
    (∃ t, State.reset.status = .running ∧ applyEvent .cycle State.reset = .next t) :=
  ⟨rfl, by decide, by rw [List.length_replicate], by rw [List.length_replicate]; decide, by decide, ⟨_, rfl⟩, _, rfl, rfl⟩

theorem witness_KeyPressCompletesTheWait :
    (State.reset.phase ≠ .unreset ∧ State.reset.status ≠ .awaitingKey) ∧
    (({ State.reset with status := .awaitingKey } : State).phase ≠ .unreset ∧
      ({ State.reset with status := .awaitingKey } : State).status = .awaitingKey) := by decide

theorem witness_SetKeysOverwritesTheKeyMatrix : ({ State.reset with status := .faulted } : State).phase ≠ .unreset := by decide

theorem witness_ConsumeDirtyTakesTheFrameOnce :
    State.reset.phase ≠ .unreset ∧ State.reset.dirty = false ∧ ({ State.reset with dirty := true } : State).dirty = true := by
  decide

theorem witness_StepAppliesTheOldestPendingEvent :
    ({ State.reset with pending := [.setKeys 1, .cycle] } : State).pending = .setKeys 1 :: [.cycle] ∧
    ∃ t, step { State.reset with pending := [.setKeys 1, .cycle] } = .next t := ⟨rfl, _, rfl⟩

theorem witness_EqualContentsAreEqualMemories :
    Memory.wf [(0x300, 1)] = true ∧
    ∀ a, a < 4096 → Memory.read [(0x300, 1)] a = Memory.read (Memory.write [] 0x300 1) a := ⟨by decide, fun _ _ => rfl⟩

theorem witness_ProbedWordIsFetched : State.reset.mem.wf = true ∧ 0xFFFF < 65536 := by decide

/-- A state of a running program that satisfies the invariant and answers a next state. -/
def running : State := { State.reset with phase := .executing, mem := [(0x201, 0xEE)], SP := 1, stack := State.reset.stack.set 0 0xFFE }

theorem witness_StepKeepsTheInvariant : Inv running ∧ ∃ t, step running = .next t ∧ t.pc = 0x1000 :=
  ⟨⟨by decide, by decide, by decide, nofun, by decide, nofun, nofun, nofun⟩, _, rfl, rfl⟩

end Sys2Proof.Tests
end

section
/-! The pending host events along a step: no instruction and no cycle touches them, and each host event leaves them to the
step that took it off the list (spec 00_scope R6, R7; log 2). -/

namespace Sys2Proof.Machine

/-- Every instruction answers a next state, and in it the pending events are those of before: the instructions that can
fault in either outcome of their case lemma, the others by their one answer. -/
theorem exec_next_pending (i : Instr) (s : State) : ∃ t, exec i s = .next t ∧ t.pending = s.pending := by
  cases i with
  | ret => rcases execRet_cases s with ⟨-, h⟩ | ⟨_, h⟩ <;> exact ⟨_, h, rfl⟩
  | call nnn => rcases execCall_cases nnn s with ⟨-, h⟩ | ⟨_, h⟩ <;> exact ⟨_, h, rfl⟩
  | drw x y n => rcases execDrw_cases x y n s with ⟨-, -, h⟩ | ⟨-, h⟩ <;> exact ⟨_, h, rfl⟩
  | skp x => rcases execSkp_cases x s with ⟨-, h⟩ | ⟨-, h⟩ <;> exact ⟨_, h, rfl⟩
  | sknp x => rcases execSknp_cases x s with ⟨-, h⟩ | ⟨-, h⟩ <;> exact ⟨_, h, rfl⟩
  | addI x => rcases execAddI_cases x s with ⟨-, h⟩ | ⟨-, h⟩ <;> exact ⟨_, h, rfl⟩
  | ldF x => rcases execLdF_cases x s with ⟨-, h⟩ | ⟨-, h⟩ <;> exact ⟨_, h, rfl⟩
  | ldB x => rcases execLdB_cases x s with ⟨-, h⟩ | ⟨-, h⟩ <;> exact ⟨_, h, rfl⟩
  | ldMemVx x => rcases execLdMemVx_cases x s with ⟨-, h⟩ | ⟨-, h⟩ <;> exact ⟨_, h, rfl⟩
  | ldVxMem x => rcases execLdVxMem_cases x s with ⟨-, h⟩ | ⟨-, h⟩ <;> exact ⟨_, h, rfl⟩
  | _ => exact ⟨_, rfl, rfl⟩

@[simp] theorem State.endCycle_pending (s : State) : s.endCycle.pending = s.pending := by
  by_cases h : s.status = .running
  · rw [State.endCycle_running h, State.timerTick_pending]
  · rw [State.endCycle_idle h]

theorem executeAndTick_next_pending (i : Instr) (s : State) :
    ∃ t, executeAndTick i s = .next t ∧ t.pending = s.pending := by
  obtain ⟨t, ht, hp⟩ := exec_next_pending i s
  exact ⟨t.endCycle, by simp only [executeAndTick, ht], by rw [State.endCycle_pending, hp]⟩

theorem decodeAndExecute_next_pending (op : Word) (s : State) :
    ∃ t, decodeAndExecute op s = .next t ∧ t.pending = s.pending := by
  unfold decodeAndExecute
  split
  · next i _ => exact executeAndTick_next_pending i s
  · exact ⟨_, rfl, State.takeFault_pending ..⟩

theorem runCycle_next_pending (s : State) : ∃ t, runCycle s = .next t ∧ t.pending = s.pending := by
  unfold runCycle
  split
  · exact ⟨_, rfl, State.takeFault_pending ..⟩
  · next op _ => exact decodeAndExecute_next_pending op s

/-- A cycle answers a next state in every status, with the pending events of before. -/
theorem cycle_next_pending (s : State) : ∃ t, cycle s = .next t ∧ t.pending = s.pending := by
  unfold cycle
  split
  · exact runCycle_next_pending { s with phase := .executing }
  · exact ⟨s, rfl, rfl⟩
  · exact ⟨s, rfl, rfl⟩

@[simp] theorem State.keyPress_pending (s : State) (idx : Nibble) : (s.keyPress idx).pending = s.pending := by
  unfold State.keyPress
  split <;> rfl

theorem State.loadRom_pending {s t : State} {bytes : List Byte} (h : s.loadRom bytes = .next t) :
    t.pending = s.pending := by
  unfold State.loadRom at h
  split at h
  · split at h <;> cases h <;> rfl
  · cases h

/-- After the first reset the check of `applyEvent` is passed; before it an event but `reset` answers no next state. -/
theorem next_of_guardedEvent {s t : State} {a : Answer}
    (h : (if s.phase = .unreset then .refused .eventBeforeReset else a) = .next t) : a = .next t := by
  split at h
  · cases h
  · exact h

/-- No host event that answers a next state touches the events still pending, `reset` included. -/
theorem applyEvent_pending {e : HostEvent} {s t : State} (h : applyEvent e s = .next t) : t.pending = s.pending := by
  cases e with
  | reset => cases h; exact State.initialise_pending s
  | loadRom bytes => exact State.loadRom_pending (next_of_guardedEvent h)
  | cycle =>
    obtain ⟨u, hu, hp⟩ := cycle_next_pending s
    cases hu.symm.trans (next_of_guardedEvent h)
    exact hp
  | setKeys k => cases next_of_guardedEvent h; exact State.setKeys_pending s k
  | keyPress idx => cases next_of_guardedEvent h; exact State.keyPress_pending s idx
  | consumeDirty => cases next_of_guardedEvent h; exact State.consumeDirty_pending s

/-- With events pending, a step is the effect of the oldest on the state that holds the others. -/
theorem step_of_pending {s : State} {e : HostEvent} {rest : List HostEvent} (h : s.pending = e :: rest) :
    step s = applyEvent e { s with pending := rest } := by
  simp only [step, applyPending, h]

/-- Settles O47: the step takes the oldest event off the list before it applies it, and no event touches the list. -/
theorem stepAppliesTheOldestPendingEvent : Obligations.StepAppliesTheOldestPendingEvent := by
  intro s t e rest hpending hstep
  rw [step_of_pending hpending] at hstep
  exact ⟨applyEvent_pending hstep, hstep⟩

end Sys2Proof.Machine
end

section
/-! What an instruction may change, said once for all 35: it raises the fault of the table (60_exceptions R170) and nothing
else happens, or it raises none and changes at most the elements whose rules name it (10_state R20 to R36). -/

namespace Sys2Proof.Machine

/-! ## The registers and pc after the shared updates -/

theorem regsKeptBut_setReg {s u : State} (hV : u.V = s.V) (x : RegId) (b : Byte) :
    RegsKeptBut (· = x) s (u.setReg x b).pcPlus2 :=
  fun r (hr : r ≠ x) => by rw [State.pcPlus2_reg, State.reg_setReg, if_neg hr, State.reg, State.reg, hV]

theorem regsKeptBut_setFlagThenReg (s : State) (x : RegId) (f b : Byte) :
    RegsKeptBut (fun r => r = x ∨ r = 15) s (s.setFlagThenReg x f b).pcPlus2 := by
  intro r hr
  obtain ⟨hx, hf⟩ := not_or.mp hr
  rw [State.pcPlus2_reg, State.reg_setFlagThenReg, if_neg hx, if_neg hf]

theorem regsKeptBut_loadRegsUpTo (s : State) (x : RegId) (a : Nat) :
    RegsKeptBut (· ≤ x) s (s.loadRegsUpTo x a).pcPlus2 :=
  fun r (hr : ¬ r ≤ x) => by rw [State.pcPlus2_reg, State.reg_loadRegsUpTo, if_neg hr]

theorem skipIf_pc_cases (s : State) (c : Bool) : (s.skipIf c).pc = s.pc + 2 ∨ (s.skipIf c).pc = s.pc + 4 := by
  cases c
  · exact .inl rfl
  · exact .inr rfl

theorem zextAddr_toNat (nnn : Addr12) : (zextAddr nnn).toNat = nnn.toNat :=
  BitVec.toNat_setWidth_of_le (by decide)

/-- The sum of JP V0 is exact: it stays far below 2^16 (40_control_flow R104). -/
theorem jumpV0Target_toNat (s : State) (nnn : Addr12) : (s.jumpV0Target nnn).toNat = nnn.toNat + (s.reg 0).toNat := by
  have := nnn.isLt
  have := (s.reg 0).isLt
  rw [State.jumpV0Target, BitVec.toNat_ofNat, Nat.mod_eq_of_lt (by omega)]

theorem bcdDigits_length (v : Byte) : (bcdDigits v).length = 3 := rfl

theorem regsUpTo_length (s : State) (x : RegId) : (s.regsUpTo x).length = x.val + 1 := by
  have := x.isLt
  rw [State.regsUpTo, List.length_take, Vector.length_toList]
  omega

/-! ## An instruction that raises no fault -/

/-- What an instruction that raises no fault may have done to each element of the state. Where a field is not given, the
element is as before and pc has moved by 2. -/
structure CompletionFrame (i : Instr) (s t : State) : Prop where
  regs : RegsKeptBut (destination i) s t := by exact fun _ _ => rfl
  index : t.I = s.I ∨ (∃ nnn, i = .ldI nnn) ∨ (∃ x, i = .addI x ∨ i = .ldF x) := by exact .inl rfl
  pc : pcRule i s t := by exact rfl
  /-- RET leaves the entry where it is, CALL stores its own address (10_state R25) -/
  stack : StackKept s t ∨ (i = .ret ∧ t.stack = s.stack) ∨
    ((∃ nnn, i = .call nnn) ∧ ∃ h : s.SP.val < 16, t.stack = s.stack.set s.SP.val s.pc) := by exact .inl ⟨rfl, rfl⟩
  /-- FX33 and FX55 store a row of bytes that lies within memory (20_memory R59) -/
  mem : t.mem = s.mem ∨ ((∃ x, i = .ldB x ∨ i = .ldMemVx x) ∧
    ∃ bs : List Byte, s.I.toNat + bs.length ≤ Config.memSize ∧ t.mem = s.mem.writeBytes s.I.toNat bs) := by
      exact .inl rfl
  delay : t.DT = s.DT ∨ (∃ x, i = .ldDTVx x) := by exact .inl rfl
  sound : t.ST = s.ST ∨ (∃ x, i = .ldSTVx x) := by exact .inl rfl
  keys : t.keys = s.keys := by exact rfl
  display : DisplayKept s t ∨ i = .cls ∨ (∃ x y n, i = .drw x y n) := by exact .inl ⟨rfl, rfl⟩
  /-- FX0A alone records a target and waits (45_keys_timers R162) -/
  wait : (t.status = s.status ∧ t.keyTarget = s.keyTarget) ∨
    (i = .ldVxK t.keyTarget ∧ t.status = .awaitingKey) := by exact .inl ⟨rfl, rfl⟩
  fault : t.fault = s.fault := by exact rfl
  phase : t.phase = s.phase := by exact rfl
  pending : t.pending = s.pending := by exact rfl
  draws : t.rndDraws = s.rndDraws ∨ (∃ x nn, i = .rnd x nn) := by exact .inl rfl

/-- FX65 stays in its frame whatever bytes it loads: said of any V, so that nothing has to be loaded to see it. -/
theorem completionFrame_ldVxMem {x : RegId} {s : State} {V : Vector Byte 16}
    (h : RegsKeptBut (· ≤ x) s { s with V := V }.pcPlus2) : CompletionFrame (.ldVxMem x) s { s with V := V }.pcPlus2 where
  regs := h

/-- The two ways in which Execute ends: the fault of the table, as the entry of R176 and nothing else; or a next state
within the frame. -/
def FaultsOrCompletes (i : Instr) (s : State) : Prop :=
  (∃ c n, tableFault i s = some (c, n) ∧ exec i s = .next (s.takeFault c (some (encode i)) n)) ∨
    (tableFault i s = none ∧ ∃ t, exec i s = .next t ∧ CompletionFrame i s t)

/-- Every instruction ends in one of the two ways: those of the table in either outcome of their case lemma, the others in
their one answer. -/
theorem exec_faultsOrCompletes (i : Instr) (s : State) : FaultsOrCompletes i s := by
  cases i with
  | sys nnn => exact .inl ⟨_, _, rfl, rfl⟩
  | cls => exact .inr ⟨rfl, _, rfl, { display := .inr (.inl rfl) }⟩
  | ret =>
    rcases execRet_cases s with ⟨h, e⟩ | ⟨h, e⟩
    · exact .inl ⟨_, _, if_pos h, e⟩
    · exact .inr ⟨if_neg (by omega), _, e,
        { stack := .inr (.inl ⟨rfl, rfl⟩)
          pc := fun k hk hsp => by simp only [hsp, Nat.add_sub_cancel] }⟩
  | jp nnn => exact .inr ⟨rfl, _, rfl, { pc := zextAddr_toNat nnn }⟩
  | call nnn =>
    rcases execCall_cases nnn s with ⟨h, e⟩ | ⟨h, e⟩
    · exact .inl ⟨_, _, if_pos h, e⟩
    · exact .inr ⟨if_neg (by omega), _, e,
        { stack := .inr (.inr ⟨⟨nnn, rfl⟩, h, rfl⟩)
          pc := zextAddr_toNat nnn }⟩
  | seImm x nn | sneImm x nn | seReg x y | sneReg x y =>
    exact .inr ⟨rfl, _, rfl, { pc := skipIf_pc_cases s _ }⟩
  | ldImm x nn | addImm x nn | ldReg x y | orReg x y | andReg x y | xorReg x y | ldVxDT x =>
    exact .inr ⟨rfl, _, rfl, { regs := regsKeptBut_setReg rfl x _ }⟩
  | addReg x y | subReg x y | shr x y | subnReg x y | shl x y =>
    exact .inr ⟨rfl, _, rfl, { regs := regsKeptBut_setFlagThenReg s x _ _ }⟩
  | ldI nnn => exact .inr ⟨rfl, _, rfl, { index := .inr (.inl ⟨nnn, rfl⟩) }⟩
  | jpV0 nnn => exact .inr ⟨rfl, _, rfl, { pc := jumpV0Target_toNat s nnn }⟩
  | rnd x nn =>
    exact .inr ⟨rfl, _, rfl,
      { regs := regsKeptBut_setReg rfl x _
        draws := .inr ⟨x, nn, rfl⟩ }⟩
  | drw x y n =>
    rcases execDrw_cases x y n s with ⟨hn, h, e⟩ | ⟨h, e⟩
    · exact .inl ⟨_, _, if_pos ⟨hn, by omega⟩, e⟩
    · exact .inr ⟨if_neg (by omega), _, e,
        { regs := regsKeptBut_setReg rfl 15 _
          display := .inr (.inr ⟨x, y, n, rfl⟩) }⟩
  | skp x =>
    rcases execSkp_cases x s with ⟨h, e⟩ | ⟨h, e⟩
    · exact .inl ⟨_, _, if_pos h, e⟩
    · exact .inr ⟨if_neg (by omega), _, e, { pc := skipIf_pc_cases s _ }⟩
  | sknp x =>
    rcases execSknp_cases x s with ⟨h, e⟩ | ⟨h, e⟩
    · exact .inl ⟨_, _, if_pos h, e⟩
    · exact .inr ⟨if_neg (by omega), _, e, { pc := skipIf_pc_cases s _ }⟩
  | ldVxK x => exact .inr ⟨rfl, _, rfl, { wait := .inr ⟨rfl, rfl⟩ }⟩
  | ldDTVx x => exact .inr ⟨rfl, _, rfl, { delay := .inr ⟨x, rfl⟩ }⟩
  | ldSTVx x => exact .inr ⟨rfl, _, rfl, { sound := .inr ⟨x, rfl⟩ }⟩
  | addI x =>
    rcases execAddI_cases x s with ⟨h, e⟩ | ⟨h, e⟩
    · exact .inl ⟨_, _, if_pos h, e⟩
    · exact .inr ⟨if_neg (by omega), _, e, { index := .inr (.inr ⟨x, .inl rfl⟩) }⟩
  | ldF x =>
    rcases execLdF_cases x s with ⟨h, e⟩ | ⟨h, e⟩
    · exact .inl ⟨_, _, if_pos h, e⟩
    · exact .inr ⟨if_neg (by omega), _, e, { index := .inr (.inr ⟨x, .inr rfl⟩) }⟩
  | ldB x =>
    rcases execLdB_cases x s with ⟨h, e⟩ | ⟨h, e⟩
    · exact .inl ⟨_, _, if_pos h, e⟩
    · have hbs : s.I.toNat + (bcdDigits (s.reg x)).length ≤ Config.memSize := by
        rw [bcdDigits_length, Config.memSize]; omega
      exact .inr ⟨if_neg (by omega), _, e, { mem := .inr ⟨⟨x, .inl rfl⟩, _, hbs, rfl⟩ }⟩
  | ldMemVx x =>
    rcases execLdMemVx_cases x s with ⟨h, e⟩ | ⟨h, e⟩
    · exact .inl ⟨_, _, if_pos h, e⟩
    · have hbs : s.I.toNat + (s.regsUpTo x).length ≤ Config.memSize := by
        rw [regsUpTo_length, Config.memSize]; omega
      exact .inr ⟨if_neg (by omega), _, e, { mem := .inr ⟨⟨x, .inr rfl⟩, _, hbs, rfl⟩ }⟩
  | ldVxMem x =>
    rcases execLdVxMem_cases x s with ⟨h, e⟩ | ⟨h, e⟩
    · exact .inl ⟨_, _, if_pos h, e⟩
    · exact .inr ⟨if_neg (by omega), _, e, completionFrame_ldVxMem (regsKeptBut_loadRegsUpTo s x s.I.toNat)⟩

end Sys2Proof.Machine
end

section
/-! The writers of each element of the state (10_state R20 to R36), read off the frame of the instructions. -/

namespace Sys2Proof.Machine

/-- An answered instruction has raised the fault of the table or stayed within its frame. -/
theorem exec_next_cases {i : Instr} {s t : State} (h : exec i s = .next t) :
    (∃ c n, tableFault i s = some (c, n) ∧ t = s.takeFault c (some (encode i)) n) ∨
      (tableFault i s = none ∧ CompletionFrame i s t) := by
  rcases exec_faultsOrCompletes i s with ⟨c, n, hf, e⟩ | ⟨hf, u, e, frame⟩
  · cases e.symm.trans h
    exact .inl ⟨c, n, hf, rfl⟩
  · cases e.symm.trans h
    exact .inr ⟨hf, frame⟩

/-- Settles O37: a fault writes the status and the record only, and a completing instruction stays within its frame. -/
theorem eachElementHasOnlyItsOwnWriters : Obligations.EachElementHasOnlyItsOwnWriters := by
  intro i s t h
  rcases exec_next_cases h with ⟨c, n, hf, rfl⟩ | ⟨hf, frame⟩
  · have hf' : tableFault i s ≠ none := by rw [hf]; exact Option.some_ne_none _
    exact ⟨fun k => absurd ⟨rfl, rfl⟩ k, fun k => absurd ⟨rfl, rfl⟩ k, fun k => absurd (fun _ => rfl) k,
      fun k => absurd rfl k, fun k => absurd rfl k, fun k => absurd rfl k, fun k => absurd rfl k, rfl,
      fun _ k => absurd rfl k, fun k => absurd k hf', fun _ => rfl, fun _ => .inr hf', fun _ => hf', rfl, rfl,
      fun k => absurd rfl k⟩
  · exact ⟨frame.display.resolve_left,
      fun k => (frame.stack.resolve_left k).imp And.left And.left,
      fun k => (frame.mem.resolve_left fun e => k fun a => by rw [e]).1,
      frame.index.resolve_left, frame.delay.resolve_left, frame.sound.resolve_left,
      fun k => ⟨t.keyTarget, (frame.wait.resolve_left fun e => k e.2).1⟩, frame.keys,
      fun r k => not_not.mp fun hr => k (frame.regs r hr),
      fun _ => frame.pc, fun k => absurd hf k,
      fun k => .inl ⟨t.keyTarget, (frame.wait.resolve_left fun e => k e.1).1⟩, fun k => absurd frame.fault k,
      frame.phase, frame.pending, frame.draws.resolve_left⟩

/-- A register that an instruction changes is one of its destinations. -/
theorem destination_of_reg_changed {i : Instr} {s t : State} {r : RegId} (h : exec i s = .next t)
    (hr : t.reg r ≠ s.reg r) : destination i r := by
  obtain ⟨-, -, -, -, -, -, -, -, hdest, -⟩ := eachElementHasOnlyItsOwnWriters i s t h
  exact hdest r hr

/-- Settles O38: the instructions of which VF is a destination are the listed ones. -/
theorem flagRegisterHasOnlyItsOwnWriters : Obligations.FlagRegisterHasOnlyItsOwnWriters := by
  intro i s t h hVF
  have hdest : destination i 15 := destination_of_reg_changed h hVF
  cases i with
  | addReg x y | subReg x y | subnReg x y | shr x y | shl x y | drw x y n => exact .inl ⟨x, y, by simp⟩
  | ldImm x nn | addImm x nn | rnd x nn =>
    obtain rfl : 15 = x := hdest
    exact .inr (.inl ⟨nn, by simp⟩)
  | ldReg x y | orReg x y | andReg x y | xorReg x y =>
    obtain rfl : 15 = x := hdest
    exact .inr (.inr (.inl ⟨y, by simp⟩))
  | ldVxDT x =>
    obtain rfl : 15 = x := hdest
    exact .inr (.inr (.inr (.inl rfl)))
  | ldVxMem x =>
    obtain rfl : x = 15 := le_antisymm (Fin.le_last x) hdest
    exact .inr (.inr (.inr (.inr rfl)))
  | _ => exact hdest.elim

end Sys2Proof.Machine
end

section
/-! The ends of a cycle (10_state R40 to R42): what a cycle can do, said once, and the timers over it. -/

namespace Sys2Proof.Machine

theorem WordAtPc.fetch_eq {s : State} {op : Word} (h : WordAtPc s op) : s.fetch = .ok op := by
  obtain ⟨hpc, hop⟩ := h
  rcases s.fetch_cases with ⟨-, e⟩ | ⟨hpc', -⟩ | ⟨hpc', -⟩
  · rw [e]
    congr 1
    exact BitVec.eq_of_toNat_eq ((wordOfBytes_toNat ..).trans hop.symm)
  · omega
  · omega

theorem State.pc_le_of_fetch {s : State} {op : Word} (h : s.fetch = .ok op) : s.pc.toNat ≤ 0xFFE := by
  rcases s.fetch_cases with ⟨hpc, -⟩ | ⟨-, e⟩ | ⟨-, e⟩
  · exact hpc
  · cases e.symm.trans h
  · cases e.symm.trans h

theorem State.fetch_error_cause {s : State} {e : BadAccess} (h : s.fetch = .error e) : e.cause = .fetchBounds := by
  rcases s.fetch_cases with ⟨-, k⟩ | ⟨-, k⟩ | ⟨-, k⟩
  · cases k.symm.trans h
  · cases k.symm.trans h; rfl
  · cases k.symm.trans h; rfl

theorem cycle_running {s : State} (h : s.status = .running) : cycle s = runCycle { s with phase := .executing } := by
  simp only [cycle, h]

theorem cycle_idle {s : State} (h : s.status ≠ .running) : cycle s = .next s := by
  cases hs : s.status with
  | running => exact absurd hs h
  | awaitingKey => simp only [cycle, hs]
  | faulted => simp only [cycle, hs]

theorem applyEvent_cycle {s : State} (h : s.phase ≠ .unreset) : applyEvent .cycle s = cycle s := if_neg h

theorem runCycle_of_decoded {s : State} {op : Word} {i : Instr} (hop : s.fetch = .ok op) (hi : decodeOp op = .ok i) :
    runCycle s = executeAndTick i s := by
  simp only [runCycle, hop, decodeAndExecute, hi]

theorem executeAndTick_next {i : Instr} {s t : State} (h : exec i s = .next t) :
    executeAndTick i s = .next t.endCycle := by
  simp only [executeAndTick, h]

/-- With no other event pending, a step is a cycle (log 2). -/
theorem step_of_no_pending {s : State} (h : s.pending = []) : step s = applyEvent .cycle s := by
  simp only [step, applyPending, h]

/-- When it is ready to, a step in Running executes the decoded word at pc and then ticks. -/
theorem ReadyToCycle.step_eq {s : State} {op : Word} {i : Instr} (h : ReadyToCycle s) (hop : WordAtPc s op)
    (hi : decodeOp op = .ok i) : step s = executeAndTick i { s with phase := .executing } := by
  obtain ⟨hphase, hpending, hstatus⟩ := h
  have hfetch : State.fetch { s with phase := .executing } = .ok op := hop.fetch_eq
  calc step s = applyEvent .cycle s := step_of_no_pending hpending
    _ = cycle s := applyEvent_cycle hphase
    _ = runCycle { s with phase := .executing } := cycle_running hstatus
    _ = executeAndTick i { s with phase := .executing } := runCycle_of_decoded hfetch hi

/-- Settles O36: after a reset a cycle is not refused, and it answers a next state in every status. -/
theorem everyCycleAnswersANextState : Obligations.EveryCycleAnswersANextState := by
  intro s h
  obtain ⟨t, ht, -⟩ := cycle_next_pending s
  exact ⟨t, (applyEvent_cycle h).trans ht⟩

/-- Settles O33: only a cycle in Running has steps to run. -/
theorem cycleWhileWaitingOrFaultedChangesNothing : Obligations.CycleWhileWaitingOrFaultedChangesNothing :=
  fun _ hphase hstatus => (applyEvent_cycle hphase).trans (cycle_idle hstatus)

/-- Settles O30: the step is Execute and the end of the cycle, which ticks in Running only. -/
theorem stepRunsTheDecodedInstruction : Obligations.StepRunsTheDecodedInstruction := by
  intro s op i hready hop hi
  refine ⟨fun t ht hstatus => ?_, fun t ht hstatus => ?_⟩
  · rw [hready.step_eq hop hi, executeAndTick_next ht, State.endCycle_running hstatus]
    rfl
  · rw [hready.step_eq hop hi, executeAndTick_next ht, State.endCycle_idle hstatus]

/-- The record of a fault of the table: never FetchBounds, and no info only with DecodeError (60_exceptions R170). -/
theorem tableFault_fields {i : Instr} {s : State} {c : FaultCause} {n : Option Nat} (h : tableFault i s = some (c, n)) :
    c ≠ .fetchBounds ∧ (n = none ↔ c = .decodeError) := by
  cases i with
  | sys nnn =>
    cases h
    exact ⟨by decide, by decide⟩
  | ret | call nnn | drw x y n | skp x | sknp x | addI x | ldF x | ldB x | ldMemVx x | ldVxMem x =>
    obtain ⟨-, h⟩ := Option.ite_none_right_eq_some.mp h
    cases h
    exact ⟨by decide, by simp⟩
  | _ => cases h

/-- The three ends of a cycle from `s`: in no status but Running does it do anything (R42); in Running it ends in a fault of
the fetch, of Decode or of Execute, or it completes a decoded instruction within its frame and then ticks (R40). In both it
closes the boot window (log 4). -/
inductive CycleEnd (s : State) : State → Prop where
  | idle (hs : s.status ≠ .running) : CycleEnd s s
  | faults (hs : s.status = .running) (c : FaultCause) (op : Option Word) (info : Option Nat)
      (hop : op = none ↔ c = .fetchBounds) (hinfo : info = none ↔ c = .decodeError) :
      CycleEnd s ({ s with phase := .executing }.takeFault c op info)
  | completes (hs : s.status = .running) (op : Word) (i : Instr) (u : State) (hop : s.fetch = .ok op)
      (hi : decodeOp op = .ok i) (hfault : tableFault i { s with phase := .executing } = none)
      (frame : CompletionFrame i { s with phase := .executing } u) : CycleEnd s u.endCycle

theorem cycleEnd_of_running {s t : State} (hs : s.status = .running)
    (h : runCycle { s with phase := .executing } = .next t) : CycleEnd s t := by
  cases hop : State.fetch { s with phase := .executing } with
  | error e =>
    simp only [runCycle, hop] at h
    cases h
    exact .faults hs e.cause none (some e.address) (by simp [State.fetch_error_cause hop])
      (by simp [State.fetch_error_cause hop])
  | ok op =>
    cases hi : decodeOp op with
    | reject r =>
      simp only [runCycle, hop, decodeAndExecute, hi] at h
      cases h
      exact .faults hs .decodeError (some op) none (by simp) (by simp)
    | ok i =>
      rw [runCycle_of_decoded hop hi] at h
      rcases exec_faultsOrCompletes i { s with phase := .executing } with ⟨c, n, hf, e⟩ | ⟨hf, u, e, frame⟩
      · obtain ⟨hc, hn⟩ := tableFault_fields hf
        rw [executeAndTick_next e, State.endCycle_idle (by simp)] at h
        cases h
        exact .faults hs c (some (encode i)) n (by simp [hc]) hn
      · rw [executeAndTick_next e] at h
        cases h
        exact .completes hs op i u hop hi hf frame

/-- Every answered cycle ends in one of the three ways. -/
theorem cycleEnd_of_cycle {s t : State} (h : applyEvent .cycle s = .next t) : CycleEnd s t := by
  have h : cycle s = .next t := next_of_guardedEvent h
  by_cases hs : s.status = .running
  · exact cycleEnd_of_running hs ((cycle_running hs).symm.trans h)
  · cases (cycle_idle hs).symm.trans h
    exact .idle hs

@[simp] theorem State.endCycle_status (s : State) : s.endCycle.status = s.status := by
  by_cases h : s.status = .running
  · rw [State.endCycle_running h, State.timerTick_status]
  · rw [State.endCycle_idle h]

/-- FX0A, the one instruction that completes in another status, writes no timer. -/
theorem CompletionFrame.timersKept {i : Instr} {s t : State} (frame : CompletionFrame i s t)
    (h : t.status ≠ s.status) : TimersKept s t := by
  obtain ⟨hi, -⟩ := frame.wait.resolve_left fun k => h k.1
  refine ⟨frame.delay.resolve_right ?_, frame.sound.resolve_right ?_⟩
  · rintro ⟨x, hx⟩
    cases hi.symm.trans hx
  · rintro ⟨x, hx⟩
    cases hi.symm.trans hx

theorem CycleEnd.timersKept {s t : State} (h : CycleEnd s t) (ht : t.status ≠ .running) : TimersKept s t := by
  cases h with
  | idle => exact ⟨rfl, rfl⟩
  | faults => exact ⟨rfl, rfl⟩
  | completes hs op i u hop hi hfault frame =>
    rw [State.endCycle_status] at ht
    rw [State.endCycle_idle ht]
    exact frame.timersKept fun k => ht (k.trans hs)

theorem CycleEnd.decoded {s t : State} (h : CycleEnd s t) (ht : t.status = .running) :
    s.status = .running ∧ ∃ op i, s.fetch = .ok op ∧ decodeOp op = .ok i := by
  cases h with
  | idle hs => exact absurd ht hs
  | faults => cases ht
  | completes hs op i u hop hi => exact ⟨hs, op, i, hop, hi⟩

/-- Settles O29: the end of an executing cycle ticks in Running only, and of the ends of a cycle only a completed instruction
leaves the status Running. -/
theorem timersTickAfterExecute : Obligations.TimersTickAfterExecute := by
  refine ⟨fun s op i t hready hop hi ht => ?_, fun s t h => ?_⟩
  · refine ⟨t.endCycle, (hready.step_eq hop hi).trans (executeAndTick_next ht), fun hs => ?_, fun hs => ?_⟩
    · rw [State.endCycle_running hs]
      exact ⟨tickDown_toNat t.DT, tickDown_toNat t.ST⟩
    · rw [State.endCycle_idle hs]
      exact ⟨rfl, rfl⟩
  · have hend := cycleEnd_of_cycle h
    exact ⟨hend.timersKept, hend.decoded⟩

end Sys2Proof.Machine
end

section
/-! The status over every host event (10_state R35). -/

namespace Sys2Proof.Machine

/-- What a host event can do to the status: nothing, with the record as it was; a reset and a key press that ends a wait lead
to Running; a cycle in Running leads to AwaitingKey by an FX0A at pc, or to Faulted. -/
inductive StatusMove (e : HostEvent) (s t : State) : Prop where
  | kept (h : StatusKept s t)
  | reset (he : e = .reset) (ht : t.status = .running)
  | keyPress (k : Nibble) (he : e = .keyPress k) (hs : s.status = .awaitingKey) (ht : t.status = .running)
  | wait (he : e = .cycle) (hs : s.status = .running) (ht : t.status = .awaitingKey) (op : Word)
      (hop : s.fetch = .ok op) (hi : decodeOp op = .ok (.ldVxK t.keyTarget))
  | fault (he : e = .cycle) (hs : s.status = .running) (ht : t.status = .faulted)

@[simp] theorem State.endCycle_fault (s : State) : s.endCycle.fault = s.fault := by
  by_cases h : s.status = .running
  · rw [State.endCycle_running h, State.timerTick_fault]
  · rw [State.endCycle_idle h]

theorem CycleEnd.statusMove {s t : State} (h : CycleEnd s t) : StatusMove .cycle s t := by
  cases h with
  | idle => exact .kept ⟨rfl, rfl⟩
  | faults hs => exact .fault rfl hs rfl
  | completes hs op i u hop hi hfault frame =>
    rcases frame.wait with ⟨hu, -⟩ | ⟨hwait, hu⟩
    · exact .kept ⟨(State.endCycle_status u).trans hu, (State.endCycle_fault u).trans frame.fault⟩
    · have hidle : u.endCycle = u := State.endCycle_idle (by simp [hu])
      rw [hidle]
      exact .wait rfl hs hu op hop (hi.trans (congrArg Decoded.ok hwait))

theorem State.keyPress_awaiting {s : State} (k : Nibble) (h : s.status = .awaitingKey) :
    s.keyPress k = { (s.setReg s.keyTarget (k.setWidth 8)).pcPlus2 with status := .running } := if_pos h

theorem State.keyPress_ignored {s : State} (k : Nibble) (h : s.status ≠ .awaitingKey) : s.keyPress k = s := if_neg h

/-- A ROM changes nothing but memory, if it is accepted at all. -/
theorem State.loadRom_cases {s t : State} {bytes : List Byte} (h : s.loadRom bytes = .next t) :
    t = s ∨ (bytes.length ≤ Config.romMax ∧ t = { s with mem := s.mem.writeBytes Config.progBase bytes }) := by
  unfold State.loadRom at h
  split at h
  · split at h
    · cases h; exact .inl rfl
    · next hlen => cases h; exact .inr ⟨Nat.not_lt.mp hlen, rfl⟩
  · cases h

theorem statusMove_of_applyEvent {e : HostEvent} {s t : State} (h : applyEvent e s = .next t) : StatusMove e s t := by
  cases e with
  | reset => cases h; exact .reset rfl rfl
  | loadRom bytes =>
    rcases State.loadRom_cases (next_of_guardedEvent h) with rfl | ⟨-, rfl⟩
    · exact .kept ⟨rfl, rfl⟩
    · exact .kept ⟨rfl, rfl⟩
  | cycle => exact (cycleEnd_of_cycle h).statusMove
  | setKeys k => cases next_of_guardedEvent h; exact .kept ⟨rfl, rfl⟩
  | keyPress k =>
    cases next_of_guardedEvent h
    by_cases hs : s.status = .awaitingKey
    · exact .keyPress k rfl hs (by rw [State.keyPress_awaiting k hs])
    · rw [State.keyPress_ignored k hs]
      exact .kept ⟨rfl, rfl⟩
  | consumeDirty => cases next_of_guardedEvent h; exact .kept ⟨rfl, rfl⟩

/-- Settles O39: each of the moves keeps to the transitions of R35. -/
theorem statusTransitions : Obligations.StatusTransitions := by
  intro e s t h
  cases statusMove_of_applyEvent h with
  | kept h => obtain ⟨hstatus, hfault⟩ := h; simp_all
  | reset he ht => simp_all
  | keyPress k he hs ht => simp_all
  | wait he hs ht op hop hi => simp_all
  | fault he hs ht => simp_all

end Sys2Proof.Machine
end

section
/-! Memory as a representation: one list for one contents (log 6), and the probed word (log 15). -/

namespace Sys2Proof.Machine

/-- A canonical memory that lists no cell up to `k` has other contents than one that lists `k`. -/
theorem Memory.read_ne_of_listed {lo k : Nat} {b : Byte} {m m' : Memory} (h : Memory.wfFrom lo ((k, b) :: m) = true)
    (h' : Memory.wfFrom (k + 1) m' = true) : k < 4096 ∧ Memory.read ((k, b) :: m) k ≠ m'.read k := by
  obtain ⟨-, hk, hb, -⟩ := (Memory.wfFrom_cons ..).mp h
  rw [Memory.read_cons, if_pos rfl, Memory.read_of_wfFrom h' (Nat.lt_succ_self k)]
  exact ⟨hk, hb⟩

/-- The cells behind the first are not listed before it, so the contents of the tails agree where those of the lists do. -/
theorem Memory.read_tail_eq {k a : Nat} {b : Byte} {m m' : Memory} (h : Memory.wfFrom (k + 1) m = true)
    (h' : Memory.wfFrom (k + 1) m' = true) (heq : Memory.read ((k, b) :: m) a = Memory.read ((k, b) :: m') a) :
    m.read a = m'.read a := by
  by_cases ha : k = a
  · rw [Memory.read_of_wfFrom h (by omega), Memory.read_of_wfFrom h' (by omega)]
  · simpa [ha] using heq

theorem Memory.eq_of_read_eq {lo : Nat} {m m' : Memory} (h : Memory.wfFrom lo m = true)
    (h' : Memory.wfFrom lo m' = true) (heq : ∀ a, a < 4096 → m.read a = m'.read a) : m = m' := by
  induction m generalizing lo m' with
  | nil =>
    cases m' with
    | nil => rfl
    | cons c' m' =>
      obtain ⟨hk, hne⟩ := Memory.read_ne_of_listed h' (m' := []) rfl
      exact absurd (heq _ hk).symm hne
  | cons c m ih =>
    cases m' with
    | nil =>
      obtain ⟨hk, hne⟩ := Memory.read_ne_of_listed h (m' := []) rfl
      exact absurd (heq _ hk) hne
    | cons c' m' =>
      obtain ⟨k, b⟩ := c
      obtain ⟨k', b'⟩ := c'
      obtain ⟨-, hk, hb, hm⟩ := (Memory.wfFrom_cons ..).mp h
      obtain ⟨-, hk', hb', hm'⟩ := (Memory.wfFrom_cons ..).mp h'
      rcases lt_trichotomy k k' with hlt | rfl | hlt
      · obtain ⟨hk, hne⟩ := Memory.read_ne_of_listed h
          ((Memory.wfFrom_cons ..).mpr ⟨Nat.succ_le_of_lt hlt, hk', hb', hm'⟩)
        exact absurd (heq k hk) hne
      · obtain rfl : b = b' := by simpa using heq k hk
        rw [ih hm hm' fun a ha => Memory.read_tail_eq hm hm' (heq a ha)]
      · obtain ⟨hk', hne⟩ := Memory.read_ne_of_listed h'
          ((Memory.wfFrom_cons ..).mpr ⟨Nat.succ_le_of_lt hlt, hk, hb, hm⟩)
        exact absurd (heq k' hk').symm hne

/-- Settles O48, by induction along the two lists. -/
theorem equalContentsAreEqualMemories : Obligations.EqualContentsAreEqualMemories :=
  fun _ _ => Memory.eq_of_read_eq

theorem State.fetchable_le (s : State) : s.fetchable.toNat + 2 ≤ Config.memSize := by
  unfold State.fetchable
  split
  · assumption
  · decide

/-- The word put at the fetch address is read back there, high byte first (20_memory R53). -/
theorem State.wordAtPc_aboutToRun {s : State} (h : s.mem.wf = true) (op : Word) : WordAtPc (s.aboutToRun op) op := by
  have hle : s.fetchable.toNat + [opHigh op, opLow op].length ≤ Config.memSize := s.fetchable_le
  have hhigh : (s.aboutToRun op).mem.read (s.fetchable.toNat + 0) = opHigh op :=
    Memory.read_writeBytes_inside [opHigh op, opLow op] h hle Nat.zero_lt_two
  have hlow : (s.aboutToRun op).mem.read (s.fetchable.toNat + 1) = opLow op :=
    Memory.read_writeBytes_inside [opHigh op, opLow op] h hle Nat.one_lt_two
  refine ⟨?_, ?_⟩
  · have := s.fetchable_le
    change s.fetchable.toNat ≤ 0xFFE
    rw [Config.memSize] at this
    omega
  · change op.toNat = ((s.aboutToRun op).mem.read (s.fetchable.toNat + 0)).toNat * 256 +
      ((s.aboutToRun op).mem.read (s.fetchable.toNat + 1)).toNat
    rw [hhigh, hlow, ← wordOfBytes_toNat, wordOfBytes_split]

theorem State.readyToCycle_aboutToRun (s : State) (op : Word) : ReadyToCycle (s.aboutToRun op) := by
  refine ⟨?_, rfl, rfl⟩
  change (if s.phase = .unreset then Phase.boot else s.phase) ≠ .unreset
  split
  · decide
  · assumption

/-- Settles O49: the probe is `aboutToRun` of the word. -/
theorem probedWordIsFetched : Obligations.ProbedWordIsFetched := by
  intro s w hmem hw
  rw [State.withFetchWord, Nat.mod_eq_of_lt (b := 2 ^ 16) hw]
  exact ⟨s.readyToCycle_aboutToRun _, (State.wordAtPc_aboutToRun hmem _).fetch_eq⟩

end Sys2Proof.Machine
end

section
/-! The invariant (`Inv`): it holds after reset, and every host event keeps it, a cycle by the frame of its instruction. -/

namespace Sys2Proof.Machine

/-- The invariant holds after the event `reset`, whatever the host is still going to issue. -/
theorem inv_initialise (s : State) : Inv s.initialise where
  memCanonical := rfl
  stackBound j := by simp
  pcBound := by simp
  waitingPc := nofun
  faultRecorded := by simp
  faultPc := nofun
  faultFields := nofun
  bootState _ := ⟨rfl, rfl, rfl⟩

/-- Settles O50: the reset state is what the event `reset` makes of it. -/
theorem resetStateSatisfiesTheInvariant : Obligations.ResetStateSatisfiesTheInvariant :=
  inv_initialise State.reset

/-! ## Updates of the elements the invariant does not speak of -/

theorem Inv.setPending {s : State} (h : Inv s) (l : List HostEvent) : Inv { s with pending := l } := { h with }

theorem Inv.setKeys {s : State} (h : Inv s) (k : BitVec 16) : Inv (s.setKeys k) := { h with }

theorem Inv.consumeDirty {s : State} (h : Inv s) : Inv s.consumeDirty := { h with }

theorem Inv.timerTick {s : State} (h : Inv s) : Inv s.timerTick := { h with }

theorem Inv.endCycle {s : State} (h : Inv s) : Inv s.endCycle := by
  by_cases hs : s.status = .running
  · rw [State.endCycle_running hs]
    exact h.timerTick
  · rwa [State.endCycle_idle hs]

/-- A cycle closes the boot window, and nothing is asked of a state outside it. -/
theorem Inv.closeBoot {s : State} (h : Inv s) : Inv { s with phase := .executing } := { h with bootState := nofun }

/-! ## The host's events -/

theorem Inv.of_loadRom {s t : State} {bytes : List Byte} (h : Inv s) (ht : s.loadRom bytes = .next t) : Inv t := by
  rcases State.loadRom_cases ht with rfl | ⟨hlen, rfl⟩
  · exact h
  · have hfits : Config.progBase + bytes.length ≤ Config.memSize := by
      simp only [Config.progBase, Config.memSize, Config.romMax] at hlen ⊢
      omega
    exact { h with memCanonical := Memory.wf_writeBytes bytes h.memCanonical hfits }

/-- Outside Faulted there is no record. -/
theorem Inv.fault_eq_none {s : State} (h : Inv s) (hs : s.status ≠ .faulted) : s.fault = none := by
  rw [← Option.not_isSome_iff_eq_none]
  exact fun k => hs (h.faultRecorded.mpr k)

/-- The pc of a waiting state is that of the FX0A, so that continuing past it stays in bounds. -/
theorem Inv.keyPress {s : State} (h : Inv s) (k : Nibble) : Inv (s.keyPress k) := by
  by_cases hs : s.status = .awaitingKey
  · have hpc := h.waitingPc hs
    have hfault : s.fault = none := h.fault_eq_none (by simp [hs])
    rw [State.keyPress_awaiting k hs]
    exact {
      memCanonical := h.memCanonical
      stackBound := h.stackBound
      pcBound := by
        change (s.pc + 2).toNat ≤ 0x10FE
        bv_omega
      waitingPc := nofun
      faultRecorded := by simp [hfault]
      faultPc := by simp [hfault]
      faultFields := by simp [hfault]
      bootState := fun hp => absurd (hs.symm.trans (h.bootState hp).1) (by decide) }
  · rwa [State.keyPress_ignored k hs]

/-! ## The cycle -/

theorem Inv.takeFault {s : State} (h : Inv s) {c : FaultCause} {op : Option Word} {info : Option Nat}
    (hphase : s.phase ≠ .boot) (hop : op = none ↔ c = .fetchBounds) (hinfo : info = none ↔ c = .decodeError) :
    Inv (s.takeFault c op info) where
  memCanonical := h.memCanonical
  stackBound := h.stackBound
  pcBound := h.pcBound
  waitingPc := nofun
  faultRecorded := by simp
  faultPc r hr := by cases hr; rfl
  faultFields r hr := by cases hr; exact ⟨hop, hinfo⟩
  bootState hp := absurd hp hphase

/-- RET without a fault pops an entry of the stack, so that what follows the CALL there is a bounded address. -/
theorem ret_pc_le {s t : State} (hstack : ∀ j : Fin 16, s.stack[j.val].toNat ≤ 0xFFE) (hfault : tableFault .ret s = none)
    (hpc : pcRule .ret s t) : t.pc.toNat ≤ 0x1000 := by
  have hSP : s.SP.val ≠ 0 := fun k => by simp [tableFault, k] at hfault
  obtain ⟨k, hk⟩ := Nat.exists_eq_succ_of_ne_zero hSP
  have hk16 : k < 16 := by omega
  have hentry := hstack ⟨k, hk16⟩
  rw [hpc k hk16 hk]
  bv_omega

/-- From a fetchable pc every rule of the table of R24 leads to at most 0x10FE, the highest target of JP V0
(10_state R23). -/
theorem pcRule_le {i : Instr} {s t : State} (hfetch : s.pc.toNat ≤ 0xFFE)
    (hstack : ∀ j : Fin 16, s.stack[j.val].toNat ≤ 0xFFE) (hfault : tableFault i s = none) (hpc : pcRule i s t) :
    t.pc.toNat ≤ 0x10FE := by
  cases i with
  | jp nnn | call nnn =>
    have hpc : t.pc.toNat = nnn.toNat := hpc
    omega
  | jpV0 nnn =>
    have hpc : t.pc.toNat = nnn.toNat + (s.reg 0).toNat := hpc
    omega
  | ret =>
    have := ret_pc_le hstack hfault hpc
    omega
  | seImm x nn | sneImm x nn | seReg x y | sneReg x y | skp x | sknp x =>
    rcases (hpc : t.pc = s.pc + 2 ∨ t.pc = s.pc + 4) with e | e
    · rw [e]; bv_omega
    · rw [e]; bv_omega
  | ldVxK x =>
    have hpc : t.pc = s.pc := hpc
    rw [hpc]; omega
  | _ =>
    have hpc : t.pc = s.pc + 2 := hpc
    rw [hpc]; bv_omega

/-- The one entry that changes is the address of a CALL, which has been fetched (10_state R24). -/
theorem CompletionFrame.stack_le {i : Instr} {s t : State} (frame : CompletionFrame i s t) (hfetch : s.pc.toNat ≤ 0xFFE)
    (hstack : ∀ j : Fin 16, s.stack[j.val].toNat ≤ 0xFFE) (j : Fin 16) : t.stack[j.val].toNat ≤ 0xFFE := by
  rcases frame.stack with ⟨e, -⟩ | ⟨-, e⟩ | ⟨-, h, e⟩
  · simpa only [e] using hstack j
  · simpa only [e] using hstack j
  · simp only [e, Vector.getElem_set]
    split
    · exact hfetch
    · exact hstack j

theorem CompletionFrame.mem_wf {i : Instr} {s t : State} (frame : CompletionFrame i s t) (h : s.mem.wf = true) :
    t.mem.wf = true := by
  rcases frame.mem with e | ⟨-, bs, hbs, e⟩
  · rw [e]; exact h
  · rw [e]; exact Memory.wf_writeBytes bs h hbs

theorem CompletionFrame.status_ne_faulted {i : Instr} {s t : State} (frame : CompletionFrame i s t)
    (hs : s.status = .running) : t.status ≠ .faulted := by
  rcases frame.wait with ⟨e, -⟩ | ⟨-, e⟩
  · simp [e, hs]
  · simp [e]

/-- A waiting state has the pc of its FX0A, which has been fetched (45_keys_timers R162). -/
theorem CompletionFrame.waiting_pc {i : Instr} {s t : State} (frame : CompletionFrame i s t) (hs : s.status = .running)
    (ht : t.status = .awaitingKey) : t.pc = s.pc := by
  rcases frame.wait with ⟨e, -⟩ | ⟨hi, -⟩
  · rw [e, hs] at ht
    cases ht
  · have hpc := frame.pc
    rw [hi] at hpc
    exact hpc

theorem Inv.complete {i : Instr} {s t : State} (h : Inv s) (hs : s.status = .running) (hphase : s.phase ≠ .boot)
    (hfetch : s.pc.toNat ≤ 0xFFE) (hfault : tableFault i s = none) (frame : CompletionFrame i s t) : Inv t := by
  have hrecord : t.fault = none := frame.fault.trans (h.fault_eq_none (by simp [hs]))
  exact {
    memCanonical := frame.mem_wf h.memCanonical
    stackBound := frame.stack_le hfetch h.stackBound
    pcBound := pcRule_le hfetch h.stackBound hfault frame.pc
    waitingPc := fun ht => by rwa [frame.waiting_pc hs ht]
    faultRecorded := by simp [hrecord, frame.status_ne_faulted hs]
    faultPc := by simp [hrecord]
    faultFields := by simp [hrecord]
    bootState := fun hp => absurd (frame.phase.symm.trans hp) hphase }

theorem Inv.of_cycleEnd {s t : State} (h : Inv s) (hend : CycleEnd s t) : Inv t := by
  cases hend with
  | idle => exact h
  | faults hs c op info hop hinfo => exact h.closeBoot.takeFault (by simp) hop hinfo
  | completes hs op i u hop hi hfault frame =>
    exact (h.closeBoot.complete hs (by simp) (State.pc_le_of_fetch hop) hfault frame).endCycle

/-! ## Every event, every step -/

theorem Inv.of_applyEvent {e : HostEvent} {s t : State} (h : Inv s) (ht : applyEvent e s = .next t) : Inv t := by
  cases e with
  | reset => cases ht; exact inv_initialise s
  | loadRom bytes => exact h.of_loadRom (next_of_guardedEvent ht)
  | cycle => exact h.of_cycleEnd (cycleEnd_of_cycle ht)
  | setKeys k => cases next_of_guardedEvent ht; exact h.setKeys k
  | keyPress k => cases next_of_guardedEvent ht; exact h.keyPress k
  | consumeDirty => cases next_of_guardedEvent ht; exact h.consumeDirty

/-- Settles O51: a step is one host event, a cycle when none is pending, and every event keeps the invariant. -/
theorem stepKeepsTheInvariant : Obligations.StepKeepsTheInvariant := by
  intro s t h ht
  cases hp : s.pending with
  | nil => exact h.of_applyEvent ((step_of_no_pending hp).symm.trans ht)
  | cons e rest => exact (h.setPending rest).of_applyEvent ((step_of_pending hp).symm.trans ht)

end Sys2Proof.Machine
end

section
/-! The fetch against memory (20_memory R53, R58, R70): the word it answers, the fault of a pc without one, and the bytes of an
FX55 read back as a word. -/

namespace Sys2Proof.Machine

/-! ## The word at pc -/

/-- A fetch answers nothing but the word at pc. -/
theorem State.wordAtPc_of_fetch {s : State} {op : Word} (h : s.fetch = .ok op) : WordAtPc s op := by
  rcases s.fetch_cases with ⟨hpc, e⟩ | ⟨-, e⟩ | ⟨-, e⟩
  · cases e.symm.trans h
    exact ⟨hpc, wordOfBytes_toNat ..⟩
  · cases e.symm.trans h
  · cases e.symm.trans h

theorem State.fetch_of_pc_le {s : State} (h : s.pc.toNat ≤ 0xFFE) : ∃ op, s.fetch = .ok op := by
  rcases s.fetch_cases with ⟨-, e⟩ | ⟨hpc, -⟩ | ⟨hpc, -⟩
  · exact ⟨_, e⟩
  · omega
  · omega

/-! ## The fault of the fetch -/

/-- The first of the two byte addresses that does not exist: the second one at the last byte of memory, else pc itself. -/
theorem State.fetch_of_pc_gt {s : State} (h : s.pc.toNat > 0xFFE) :
    s.fetch = .error ⟨.fetchBounds, if s.pc.toNat = 0xFFF then 4096 else s.pc.toNat⟩ := by
  rcases s.fetch_cases with ⟨hpc, -⟩ | ⟨hpc, e⟩ | ⟨hpc, e⟩
  · omega
  · rw [e, if_pos hpc]
  · rw [e, if_neg (by omega)]

theorem runCycle_of_fetch_error {s : State} {e : BadAccess} (h : s.fetch = .error e) :
    runCycle s = .next (s.takeFault e.cause none (some e.address)) := by
  simp only [runCycle, h]

/-- When it is ready to, a step runs the steps of a cycle, with the boot window closed (log 4). -/
theorem ReadyToCycle.step_eq_runCycle {s : State} (h : ReadyToCycle s) :
    step s = runCycle { s with phase := .executing } := by
  obtain ⟨hphase, hpending, hstatus⟩ := h
  rw [step_of_no_pending hpending, applyEvent_cycle hphase, cycle_running hstatus]

theorem State.faultEntry_takeFault (s : State) (c : FaultCause) (op : Option Word) (n : Option Nat) :
    FaultEntry s (s.takeFault c op n) c op n :=
  ⟨rfl, rfl, rfl, rfl, rfl, rfl, rfl, rfl, rfl, rfl, rfl, rfl, rfl, rfl, rfl, rfl, rfl⟩

/-- Settles O32: the fetch has a word exactly up to 0xFFE, and the fault of a fetch without one is its cycle's. -/
theorem fetchSucceedsOrRaisesFetchBounds : Obligations.FetchSucceedsOrRaisesFetchBounds := by
  refine ⟨fun s => ⟨State.fetch_of_pc_le, fun ⟨_, h⟩ => State.pc_le_of_fetch h⟩, fun _ _ => State.wordAtPc_of_fetch,
    fun s hready hpc => ?_⟩
  have hfetch := State.fetch_of_pc_gt (s := { s with phase := .executing }) hpc
  exact ⟨_, hready.step_eq_runCycle.trans (runCycle_of_fetch_error hfetch), State.faultEntry_takeFault ..⟩

/-! ## Bytes stored by FX55 -/

/-- The row of FX55 holds V[j] at its place j. -/
theorem State.getElem_regsUpTo (s : State) (x j : RegId) (h : j.val < (s.regsUpTo x).length) :
    (s.regsUpTo x)[j.val] = s.reg j := by
  simp only [State.regsUpTo, List.getElem_take, Vector.getElem_toList, State.reg]

/-- The row of FX55 within memory is read back register by register. -/
theorem State.read_writeBytes_regsUpTo {s : State} {x j : RegId} (hmem : s.mem.wf = true)
    (hfits : s.I.toNat + x.val < 4096) (hj : j.val ≤ x.val) :
    (s.mem.writeBytes s.I.toNat (s.regsUpTo x)).read (s.I.toNat + j.val) = s.reg j := by
  have hlen := regsUpTo_length s x
  have hle : s.I.toNat + (s.regsUpTo x).length ≤ Config.memSize := by rw [hlen, Config.memSize]; omega
  have hlt : j.val < (s.regsUpTo x).length := by omega
  rw [Memory.read_writeBytes_inside _ hmem hle hlt, s.getElem_regsUpTo x j hlt]

/-- Settles O40: the word at I is made of the first two bytes of the stored row. -/
theorem storedBytesAreFetched : Obligations.StoredBytesAreFetched := by
  intro x s hmem hx hfits
  rcases execLdMemVx_cases x s with ⟨hbad, -⟩ | ⟨-, hexec⟩
  · omega
  · have hhigh := State.read_writeBytes_regsUpTo (j := 0) hmem hfits (Nat.zero_le _)
    have hlow := State.read_writeBytes_regsUpTo (j := 1) hmem hfits hx
    have hpc : s.I.toNat ≤ 0xFFE := by omega
    have hword : WordAtPc { { s with mem := s.mem.writeBytes s.I.toNat (s.regsUpTo x) }.pcPlus2 with pc := s.I }
        (wordOfBytes (s.reg 0) (s.reg 1)) :=
      ⟨hpc, by rw [wordOfBytes_toNat, ← hhigh, ← hlow]; rfl⟩
    exact ⟨_, hexec, _, hword.fetch_eq, wordOfBytes_toNat ..⟩

end Sys2Proof.Machine
end

section
/-! Decoder and encoder against each other (30_encoding R81 to R87): what the decoder answers on a word is said once
(`DecodeMeaning`), and both round trips and the table of R87 are read off it. -/

namespace Sys2Proof

/-! ## The fields of a word built by a format -/

@[simp] theorem opTop_encA (t : Nibble) (nnn : Addr12) : opTop (encA t nnn) = t := (fields_encA t nnn).1

@[simp] theorem opNNN_encA (t : Nibble) (nnn : Addr12) : opNNN (encA t nnn) = nnn := (fields_encA t nnn).2

@[simp] theorem opTop_encXI (t : Nibble) (x : RegId) (nn : Byte) : opTop (encXI t x nn) = t := (fields_encXI t x nn).1

@[simp] theorem opX_encXI (t : Nibble) (x : RegId) (nn : Byte) : opX (encXI t x nn) = x := (fields_encXI t x nn).2.1

@[simp] theorem opNN_encXI (t : Nibble) (x : RegId) (nn : Byte) : opNN (encXI t x nn) = nn := (fields_encXI t x nn).2.2

@[simp] theorem opTop_encXY (t : Nibble) (x y : RegId) (n : Nibble) : opTop (encXY t x y n) = t := (fields_encXY t x y n).1

@[simp] theorem opX_encXY (t : Nibble) (x y : RegId) (n : Nibble) : opX (encXY t x y n) = x := (fields_encXY t x y n).2.1

@[simp] theorem opY_encXY (t : Nibble) (x y : RegId) (n : Nibble) : opY (encXY t x y n) = y := (fields_encXY t x y n).2.2.1

@[simp] theorem opN_encXY (t : Nibble) (x y : RegId) (n : Nibble) : opN (encXY t x y n) = n := (fields_encXY t x y n).2.2.2

theorem Instr.wellFormed_sys_iff {nnn : Addr12} :
    (Instr.sys nnn).wellFormed = true ↔ nnn ≠ 0x0E0 ∧ nnn ≠ 0x0EE := by
  simp [Instr.wellFormed]

/-! ## From an instruction to its word and back -/

/-- Family 0 on a SYS word: the check of well-formedness is what keeps it apart from CLS and RET (R83). -/
theorem decodeFamily0_encA {nnn : Addr12} (h : (Instr.sys nnn).wellFormed = true) :
    decodeFamily0 (encA 0 nnn) = .ok (.sys nnn) := by
  obtain ⟨hE0, hEE⟩ := Instr.wellFormed_sys_iff.mp h
  have hcls : encA 0 nnn ≠ 0x00E0 := fun e => hE0 ((opNNN_encA 0 nnn).symm.trans (congrArg opNNN e))
  have hret : encA 0 nnn ≠ 0x00EE := fun e => hEE ((opNNN_encA 0 nnn).symm.trans (congrArg opNNN e))
  rw [decodeFamily0, if_neg hcls, if_neg hret, opNNN_encA]

/-- Settles O1: the top nibble of the word selects the family, the family's selector the row, and the fields of the
format are the operands. -/
theorem decodeInvertsEncode : Obligations.DecodeInvertsEncode := by
  intro i hwf
  cases i with
  | sys nnn => simpa [decodeOp, encode] using decodeFamily0_encA hwf
  | cls | ret => rfl
  | jp nnn | call nnn | ldI nnn | jpV0 nnn => simp [decodeOp, encode]
  | seImm x nn | sneImm x nn | ldImm x nn | addImm x nn | rnd x nn => simp [decodeOp, encode]
  | seReg x y | sneReg x y | drw x y n => simp [decodeOp, encode]
  | ldReg x y | orReg x y | andReg x y | xorReg x y | addReg x y | subReg x y | shr x y | subnReg x y | shl x y =>
    simp [decodeOp, decodeFamily8, encode]
  | skp x | sknp x => simp [decodeOp, decodeFamilyE, encode]
  | ldVxDT x | ldVxK x | ldDTVx x | ldSTVx x | addI x | ldF x | ldB x | ldMemVx x | ldVxMem x =>
    simp [decodeOp, decodeFamilyF, encode]

/-! ## A word rebuilt from its fields -/

theorem encA_of_top {op : Word} {t : Nibble} (ht : op.toNat / 0x1000 = t.toNat) : encA t (opNNN op) = op := by
  have htop : opTop op = t := BitVec.eq_of_toNat_eq ((opTop_toNat op).trans ht)
  rw [← htop, encA_fields]

theorem encXI_of_top {op : Word} {t : Nibble} (ht : op.toNat / 0x1000 = t.toNat) :
    encXI t (opX op) (opNN op) = op := by
  have htop : opTop op = t := BitVec.eq_of_toNat_eq ((opTop_toNat op).trans ht)
  rw [← htop, encXI_fields]

theorem encXI_of_top_low {op : Word} {t : Nibble} {nn : Byte} (ht : op.toNat / 0x1000 = t.toNat)
    (hnn : op.toNat % 256 = nn.toNat) : encXI t (opX op) nn = op := by
  have hlow : opNN op = nn := BitVec.eq_of_toNat_eq ((opNN_toNat op).trans hnn)
  rw [← hlow, encXI_of_top ht]

theorem encXY_of_top_low {op : Word} {t n : Nibble} (ht : op.toNat / 0x1000 = t.toNat)
    (hn : op.toNat % 16 = n.toNat) : encXY t (opX op) (opY op) n = op := by
  have htop : opTop op = t := BitVec.eq_of_toNat_eq ((opTop_toNat op).trans ht)
  have hlow : opN op = n := BitVec.eq_of_toNat_eq ((opN_toNat op).trans hn)
  rw [← htop, ← hlow, encXY_fields]

/-! ## What the decoder answers -/

/-- The words in the sets of R87 for the families 5, 8, 9, E and F. -/
def UndefinedWord (op : Word) : Prop :=
  (op.toNat / 0x1000 = 0x5 ∧ op.toNat % 16 ≠ 0) ∨
  (op.toNat / 0x1000 = 0x8 ∧ op.toNat % 16 ∈ [0x8, 0x9, 0xA, 0xB, 0xC, 0xD, 0xF]) ∨
  (op.toNat / 0x1000 = 0x9 ∧ op.toNat % 16 ≠ 0) ∨
  (op.toNat / 0x1000 = 0xE ∧ op.toNat % 256 ∉ [0x9E, 0xA1]) ∨
  (op.toNat / 0x1000 = 0xF ∧ op.toNat % 256 ∉ [0x07, 0x0A, 0x15, 0x18, 0x1E, 0x29, 0x33, 0x55, 0x65])

/-- An answer of the decoder is right for the word: an instruction is well-formed and the word is its encoding, outside the
sets of R87; a rejected word lies in them. -/
inductive DecodeMeaning (op : Word) : Decoded → Prop where
  | instr {i : Instr} (hword : encode i = op) (hwf : i.wellFormed = true) (hdef : ¬ UndefinedWord op) :
    DecodeMeaning op (.ok i)
  | undefined {r : DecodeReject} (h : UndefinedWord op) : DecodeMeaning op (.reject r)

theorem decodeFamily0_meaning {op : Word} (ht : op.toNat / 0x1000 = 0x0) : DecodeMeaning op (decodeFamily0 op) := by
  have hdef : ¬ UndefinedWord op := by simp [UndefinedWord, ht]
  have hword : encode (.sys (opNNN op)) = op := encA_of_top ht
  unfold decodeFamily0
  split
  case isTrue hcls => exact .instr hcls.symm rfl hdef
  case isFalse hcls =>
    split
    case isTrue hret => exact .instr hret.symm rfl hdef
    case isFalse hret =>
      have hne : opNNN op ≠ 0x0E0 ∧ opNNN op ≠ 0x0EE :=
        ⟨fun e => hcls (by rw [← hword, e]; rfl), fun e => hret (by rw [← hword, e]; rfl)⟩
      exact .instr hword (Instr.wellFormed_sys_iff.mpr hne) hdef

theorem decodeFamily8_meaning {op : Word} (ht : op.toNat / 0x1000 = 0x8) : DecodeMeaning op (decodeFamily8 op) := by
  simp only [decodeFamily8, opN_toNat]
  split
  case h_10 =>
    simp only [imp_false] at *
    have hn : op.toNat % 16 ∈ [0x8, 0x9, 0xA, 0xB, 0xC, 0xD, 0xF] := by
      simp only [List.mem_cons, List.not_mem_nil]
      omega
    exact .undefined (.inr (.inl ⟨ht, hn⟩))
  all_goals
    next hn => exact .instr (encXY_of_top_low ht hn) rfl (by simp [UndefinedWord, ht, hn])

theorem decodeFamilyE_meaning {op : Word} (ht : op.toNat / 0x1000 = 0xE) : DecodeMeaning op (decodeFamilyE op) := by
  simp only [decodeFamilyE, opNN_toNat]
  split
  case h_3 =>
    simp only [imp_false] at *
    exact .undefined (by simp [UndefinedWord, *])
  all_goals
    next hnn => exact .instr (encXI_of_top_low ht hnn) rfl (by simp [UndefinedWord, ht, hnn])

theorem decodeFamilyF_meaning {op : Word} (ht : op.toNat / 0x1000 = 0xF) : DecodeMeaning op (decodeFamilyF op) := by
  simp only [decodeFamilyF, opNN_toNat]
  split
  case h_10 =>
    simp only [imp_false] at *
    exact .undefined (by simp [UndefinedWord, *])
  all_goals
    next hnn => exact .instr (encXI_of_top_low ht hnn) rfl (by simp [UndefinedWord, ht, hnn])

/-- A family without a selector: the top nibble alone makes the word defined. -/
theorem not_undefinedWord_of_top {op : Word} {t : Nat} (ht : op.toNat / 0x1000 = t) (h : t ∉ [0x5, 0x8, 0x9, 0xE, 0xF]) :
    ¬ UndefinedWord op := by
  simp only [List.mem_cons, List.not_mem_nil] at h
  unfold UndefinedWord
  omega

/-- Families 5 and 9: a word with N = 0 is of format XY, any other is undefined. -/
theorem DecodeMeaning.of_zeroNibble {op : Word} {t : Nibble} {i : Instr} {r : DecodeReject}
    (ht : op.toNat / 0x1000 = t.toNat) (h : t = 0x5 ∨ t = 0x9) (hi : encode i = encXY t (opX op) (opY op) 0)
    (hwf : i.wellFormed = true) : DecodeMeaning op (if opN op = 0 then .ok i else .reject r) := by
  have hN : opN op = 0 ↔ op.toNat % 16 = 0 := by rw [← opN_toNat, BitVec.toNat_eq]; rfl
  split
  case isTrue hn =>
    have hn := hN.mp hn
    refine .instr (hi.trans (encXY_of_top_low ht hn)) hwf ?_
    rcases h with rfl | rfl <;> simp [UndefinedWord, ht, hn]
  case isFalse hn =>
    have hn := mt hN.mpr hn
    refine .undefined ?_
    rcases h with rfl | rfl <;> simp [UndefinedWord, ht, hn]

/-- The decoder's branches, each over the words of one top nibble, answer rightly (R83). -/
theorem decodeOp_meaning (op : Word) : DecodeMeaning op (decodeOp op) := by
  simp only [decodeOp, opTop_toNat]
  split
  case h_1 ht => exact decodeFamily0_meaning ht
  case h_2 ht | h_3 ht | h_11 ht | h_12 ht =>
    exact .instr (encA_of_top ht) rfl (not_undefinedWord_of_top ht (by decide))
  case h_4 ht | h_5 ht | h_7 ht | h_8 ht | h_13 ht =>
    exact .instr (encXI_of_top ht) rfl (not_undefinedWord_of_top ht (by decide))
  case h_6 ht => exact .of_zeroNibble (t := 0x5) ht (.inl rfl) rfl rfl
  case h_9 ht => exact decodeFamily8_meaning ht
  case h_10 ht => exact .of_zeroNibble (t := 0x9) ht (.inr rfl) rfl rfl
  case h_14 ht =>
    exact .instr (encXY_of_top_low ht (opN_toNat op).symm) rfl (not_undefinedWord_of_top ht (by decide))
  case h_15 ht => exact decodeFamilyE_meaning ht
  case h_16 =>
    simp only [imp_false] at *
    have := op.isLt
    exact decodeFamilyF_meaning (by omega)

/-- Settles O2: it is the meaning of an answer that is an instruction. -/
theorem encodeInvertsDecode : Obligations.EncodeInvertsDecode := by
  intro op i h
  have hmeaning := decodeOp_meaning op
  rw [h] at hmeaning
  cases hmeaning with
  | instr hword hwf _ => exact ⟨hword, hwf⟩

/-- A well-formed instruction has one word, its encoding. -/
theorem decodeOp_eq_ok_iff {op : Word} {i : Instr} (hwf : i.wellFormed = true) :
    decodeOp op = .ok i ↔ encode i = op :=
  ⟨fun h => (encodeInvertsDecode op i h).1, fun h => h ▸ decodeInvertsEncode i hwf⟩

/-- The form in which the statements on the instructions say their encodings. -/
theorem hasOpcode_of_encode {i : Instr} {n : Nat} (hwf : i.wellFormed = true) (hn : (encode i).toNat = n) :
    Machine.HasOpcode i n :=
  ⟨hn ▸ (encode i).isLt, fun op => by rw [decodeOp_eq_ok_iff hwf, BitVec.toNat_eq, hn, eq_comm]⟩

/-! ## The rejected words and the words of SYS (R87) -/

theorem decodeOp_rejects_iff (op : Word) : (∃ r, decodeOp op = .reject r) ↔ UndefinedWord op := by
  have hmeaning := decodeOp_meaning op
  generalize decodeOp op = d at hmeaning
  cases hmeaning with
  | instr _ _ hdef => simp [hdef]
  | undefined h => simp [h]

theorem decodeOp_sys_iff (op : Word) :
    (∃ nnn, decodeOp op = .ok (.sys nnn)) ↔ op.toNat / 0x1000 = 0 ∧ op.toNat ≠ 0x00E0 ∧ op.toNat ≠ 0x00EE := by
  constructor
  · rintro ⟨nnn, h⟩
    obtain ⟨rfl, hwf⟩ := encodeInvertsDecode op _ h
    obtain ⟨hE0, hEE⟩ := Instr.wellFormed_sys_iff.mp hwf
    have hword : (encode (.sys nnn)).toNat = nnn.toNat := by simp [encode, encA_toNat]
    rw [hword]
    exact ⟨Nat.div_eq_of_lt nnn.isLt, BitVec.toNat_ne.mp hE0, BitVec.toNat_ne.mp hEE⟩
  · rintro ⟨ht, hcls, hret⟩
    have hnnn : (opNNN op).toNat = op.toNat := by rw [opNNN_toNat]; omega
    have hE0 : opNNN op ≠ 0x0E0 := BitVec.toNat_ne.mpr (hnnn ▸ hcls)
    have hEE : opNNN op ≠ 0x0EE := BitVec.toNat_ne.mpr (hnnn ▸ hret)
    exact ⟨opNNN op, (decodeOp_eq_ok_iff (Instr.wellFormed_sys_iff.mpr ⟨hE0, hEE⟩)).mpr (encA_of_top ht)⟩

/-- Settles O3: the rejected words are those whose meaning is undefined, and a SYS word is its NNN. -/
theorem rejectedWordsAreTheTableOfR87 : Obligations.RejectedWordsAreTheTableOfR87 :=
  fun op => ⟨decodeOp_rejects_iff op, decodeOp_sys_iff op⟩

/-- Settles O4: nine words are the encodings of well-formed instructions, and the last is rejected by its low nibble. -/
theorem writtenOutWordsDecode : Obligations.WrittenOutWordsDecode :=
  ⟨decodeInvertsEncode .cls rfl, decodeInvertsEncode (.call 0x300) rfl, decodeInvertsEncode (.seImm 3 0x2A) rfl,
    decodeInvertsEncode (.shl 1 2) rfl, decodeInvertsEncode (.rnd 4 0x0F) rfl, decodeInvertsEncode (.drw 1 2 5) rfl,
    decodeInvertsEncode (.sknp 5) rfl, decodeInvertsEncode (.ldMemVx 2) rfl, decodeInvertsEncode (.ldVxK 2) rfl, rfl⟩

/-! ## A cycle on a rejected word -/

namespace Machine

/-- The entry of R176 with the rejected word, at its pc (R84). -/
theorem runCycle_of_rejected {s : State} {op : Word} {r : DecodeReject} (hop : s.fetch = .ok op)
    (hr : decodeOp op = .reject r) : runCycle s = .next (s.takeFault .decodeError (some op) none) := by
  simp only [runCycle, hop, decodeAndExecute, hr]

/-- Settles O31: the step is the cycle's, which enters the fault in Decode. -/
theorem undefinedWordRaisesDecodeError : Obligations.UndefinedWordRaisesDecodeError := by
  intro s op r hready hop hr
  have hfetch : State.fetch { s with phase := .executing } = .ok op := hop.fetch_eq
  exact ⟨_, hready.step_eq_runCycle.trans (runCycle_of_rejected hfetch hr), State.faultEntry_takeFault ..⟩

end Machine

end Sys2Proof
end

section
/-! Control flow (40_control_flow R100 to R105): the fault of the table as a raised one, the frames of the jumps and of the
call stack, and the answers of RET and CALL where they raise no fault. -/

namespace Sys2Proof.Machine

/-! ## Faults and frames -/

/-- What the table lists for an instruction is what it raises, with the full entry of R176. -/
theorem raises_of_tableFault {i : Instr} {s : State} {c : FaultCause} {n : Option Nat}
    (h : tableFault i s = some (c, n)) : Raises i s c n := by
  rcases exec_faultsOrCompletes i s with ⟨c', n', hfault, e⟩ | ⟨hfault, -⟩
  · cases hfault.symm.trans h
    exact ⟨_, e, State.faultEntry_takeFault ..⟩
  · cases hfault.symm.trans h

theorem onlyPcChanges_setPc (s : State) (p : Word) : OnlyPcChanges s { s with pc := p } :=
  ⟨fun _ _ => rfl, rfl, fun _ => rfl, ⟨rfl, rfl⟩, ⟨rfl, rfl⟩, ⟨rfl, rfl⟩, ⟨rfl, rfl⟩, ⟨rfl, rfl⟩, rfl, rfl, rfl⟩

theorem onlyStackChanges_setStack (s : State) (st : Vector Word 16) (sp : Fin 17) (p : Word) :
    OnlyStackChanges s { s with stack := st, SP := sp, pc := p } :=
  ⟨fun _ => rfl, rfl, fun _ => rfl, ⟨rfl, rfl⟩, ⟨rfl, rfl⟩, ⟨rfl, rfl⟩, ⟨rfl, rfl⟩, rfl, rfl, rfl⟩

/-! ## RET and CALL without a fault -/

theorem exec_ret_of_nonempty {s : State} {k : Nat} (hk : k < 16) (hsp : s.SP.val = k + 1) :
    exec .ret s = .next { s with SP := ⟨k, by omega⟩, pc := s.stack[k] + 2 } := by
  rcases execRet_cases s with ⟨h, -⟩ | ⟨_, e⟩
  · omega
  · refine Eq.trans e ?_
    simp only [hsp, Nat.add_sub_cancel]

theorem exec_call_of_room (nnn : Addr12) {s : State} (hsp : s.SP.val < 16) :
    exec (.call nnn) s =
      .next { s with stack := s.stack.set s.SP.val s.pc, SP := ⟨s.SP.val + 1, by omega⟩, pc := zextAddr nnn } := by
  rcases execCall_cases nnn s with ⟨h, -⟩ | ⟨_, e⟩
  · omega
  · exact e

/-- 2 past a fetchable address is the exact sum (10_state R24). -/
theorem toNat_add_two_of_fetchable {a : Word} (h : a.toNat ≤ 0xFFE) : (a + 2).toNat = a.toNat + 2 := by
  bv_omega

/-! ## The statements -/

/-- Settles O5: the word of SYS is its NNN, and the table lists DecodeError without a condition. -/
theorem sysRaisesDecodeError : Obligations.SysRaisesDecodeError := fun nnn _ =>
  ⟨fun hE0 hEE => hasOpcode_of_encode (Instr.wellFormed_sys_iff.mpr ⟨hE0, hEE⟩) (by simp [encode, encA_toNat]),
    raises_of_tableFault rfl⟩

/-- Settles O6: on an empty stack the fault of the table, else the one answer of RET. -/
theorem retPopsOrUnderflows : Obligations.RetPopsOrUnderflows := by
  refine ⟨hasOpcode_of_encode rfl rfl, fun s => ⟨fun hempty => raises_of_tableFault (if_pos hempty), fun k hk hsp => ?_⟩⟩
  exact ⟨_, exec_ret_of_nonempty hk hsp, rfl, rfl, toNat_add_two_of_fetchable, rfl, onlyStackChanges_setStack ..⟩

/-- Settles O7: both jumps write pc alone, with NNN and with the sum that 16 bits hold. -/
theorem jumpsAssignPc : Obligations.JumpsAssignPc := fun nnn s =>
  ⟨hasOpcode_of_encode rfl (encA_toNat 0x1 nnn), hasOpcode_of_encode rfl (encA_toNat 0xB nnn),
    ⟨_, rfl, zextAddr_toNat nnn, onlyPcChanges_setPc ..⟩, ⟨_, rfl, jumpV0Target_toNat s nnn, onlyPcChanges_setPc ..⟩⟩

/-- Settles O8: on a full stack the fault of the table, else the one answer of CALL, which writes one entry. -/
theorem callPushesOrOverflows : Obligations.CallPushesOrOverflows := by
  intro nnn s
  refine ⟨hasOpcode_of_encode rfl (encA_toNat 0x2 nnn), fun hfull => raises_of_tableFault (if_pos hfull), fun hroom => ?_⟩
  have hentries (j : Fin 16) :
      (s.stack.set s.SP.val s.pc)[j.val] = if j.val = s.SP.val then s.pc else s.stack[j.val] := by
    simp only [Vector.getElem_set, eq_comm]
  exact ⟨_, exec_call_of_room nnn hroom, rfl, zextAddr_toNat nnn, hentries, onlyStackChanges_setStack ..⟩

/-- Settles O9: the entry that RET pops is the one the CALL pushed, and it is fetchable, so 2 past it is exact. -/
theorem returnContinuesAfterItsCall : Obligations.ReturnContinuesAfterItsCall := by
  intro nnn s hroom hpc
  have hpushed : (s.stack.set s.SP.val s.pc)[s.SP.val] = s.pc := Vector.getElem_set_self hroom
  refine ⟨_, exec_call_of_room nnn hroom, hpushed, zextAddr_toNat nnn, fun u hstack hsp => ?_⟩
  have htop : u.stack[s.SP.val] = s.pc := by rw [hstack, hpushed]
  refine ⟨_, exec_ret_of_nonempty hroom (congrArg Fin.val hsp), ?_, rfl⟩
  calc (u.stack[s.SP.val] + 2).toNat = (s.pc + 2).toNat := by rw [htop]
    _ = s.pc.toNat + 2 := toNat_add_two_of_fetchable hpc

end Sys2Proof.Machine
end

section
/-! The register skips (41_skips R110 to R113): the opcodes of the two formats and the effect of a skip are said once, for every
instruction that has them; each of the four then names its format and its condition. -/

namespace Sys2Proof.Machine

/-! ## The opcodes of the formats XI and XY -/

theorem hasOpcode_of_encXI {i : Instr} (t : Nibble) {x : RegId} {nn : Byte} (hwf : i.wellFormed = true)
    (henc : encode i = encXI t x nn) : HasOpcode i (t.toNat * 0x1000 + 0x100 * x.val + nn.toNat) :=
  hasOpcode_of_encode hwf (by rw [henc, encXI_toNat, Nat.mul_comm x.val])

theorem hasOpcode_of_encXY {i : Instr} (t n : Nibble) {x y : RegId} (hwf : i.wellFormed = true)
    (henc : encode i = encXY t x y n) : HasOpcode i (t.toNat * 0x1000 + n.toNat + 0x100 * x.val + 0x10 * y.val) :=
  hasOpcode_of_encode hwf (by rw [henc, encXY_toNat]; omega)

/-! ## A skip and its condition -/

theorem onlyPcChanges_skipIf (s : State) (c : Bool) : OnlyPcChanges s (s.skipIf c) :=
  onlyPcChanges_setPc s _

/-- An instruction that answers a skip on the test `c` skips by the condition that `c` decides. -/
theorem skipsIf_of_exec {i : Instr} {s : State} {c : Bool} {p : Prop} (hexec : exec i s = .next (s.skipIf c))
    (hc : c = true ↔ p) : SkipsIf i s p := by
  refine ⟨_, hexec, fun hp => ?_, fun hp => ?_, onlyPcChanges_skipIf s c⟩
  · rw [State.skipIf_pc, if_pos (hc.mpr hp)]
  · rw [State.skipIf_pc, if_neg (hp ∘ hc.mp)]

/-! ## The statement -/

/-- Settles O10: the words are those of the two formats, and each Boolean test decides its condition on V[X]. -/
theorem skipsCompareAndSkip : Obligations.SkipsCompareAndSkip := fun _ _ _ _ =>
  ⟨hasOpcode_of_encXI 0x3 rfl rfl, hasOpcode_of_encXI 0x4 rfl rfl,
    hasOpcode_of_encXY 0x5 0 rfl rfl, hasOpcode_of_encXY 0x9 0 rfl rfl,
    skipsIf_of_exec rfl beq_iff_eq, skipsIf_of_exec rfl bne_iff_ne,
    skipsIf_of_exec rfl beq_iff_eq, skipsIf_of_exec rfl bne_iff_ne⟩

end Sys2Proof.Machine
end

section
/-! The ALU (42_alu R120 to R138): what an instruction of each of the two shapes does (the result alone, or the flag and then
the result), the results and the flags as numbers, and the statements made of these. -/

namespace Sys2Proof.Machine

/-! ## The two shapes -/

/-- Writing registers and moving pc changes nothing else, whatever the registers become. -/
theorem onlyRegsChange_setV {dest : RegId → Prop} {s : State} {V : Vector Byte 16}
    (h : RegsKeptBut dest s { s with V := V }.pcPlus2) : OnlyRegsChange dest s { s with V := V }.pcPlus2 :=
  ⟨h, rfl, fun _ => rfl, ⟨rfl, rfl⟩, ⟨rfl, rfl⟩, ⟨rfl, rfl⟩, ⟨rfl, rfl⟩, ⟨rfl, rfl⟩, rfl, rfl, rfl⟩

theorem State.reg_setReg_pcPlus2_same (s : State) (x : RegId) (b : Byte) : (s.setReg x b).pcPlus2.reg x = b := by
  rw [State.pcPlus2_reg, State.reg_setReg, if_pos rfl]

theorem writesOneReg_of_exec {i : Instr} {s : State} {x : RegId} {b : Byte} {v : Nat}
    (hexec : exec i s = s.writeResult x b) (hv : b.toNat = v) : WritesOneReg i s x v :=
  ⟨_, hexec, by rw [State.reg_setReg_pcPlus2_same, hv], rfl, onlyRegsChange_setV (regsKeptBut_setReg rfl x b)⟩

theorem writesFlagThenResult_of_exec {i : Instr} {s : State} {x : RegId} {f b : Byte} {flag result : Nat}
    (hexec : exec i s = s.writeFlagResult x f b) (hf : f.toNat = flag) (hb : b.toNat = result) :
    WritesFlagThenResult i s x flag result := by
  refine ⟨_, hexec, ?_, fun hx => ?_, rfl, onlyRegsChange_setV (regsKeptBut_setFlagThenReg s x f b)⟩
  · rw [State.pcPlus2_reg, State.reg_setFlagThenReg, if_pos rfl, hb]
  · rw [State.pcPlus2_reg, State.reg_setFlagThenReg, if_neg hx.symm, if_pos rfl, hf]

/-! ## The results as numbers (R120) -/

theorem addResult_toNat (a b : Byte) : (addResult a b).toNat = (a.toNat + b.toNat) % 256 :=
  BitVec.toNat_ofNat ..

theorem subResult_toNat (a b : Byte) : (subResult a b).toNat = (a.toNat + 256 - b.toNat) % 256 :=
  BitVec.toNat_ofNat ..

theorem shrResult_toNat (a : Byte) : (shrResult a).toNat = a.toNat / 2 := by
  have := a.isLt
  rw [shrResult, BitVec.toNat_ofNat, Nat.mod_eq_of_lt (by omega)]

theorem shlResult_toNat (a : Byte) : (shlResult a).toNat = a.toNat * 2 % 256 :=
  BitVec.toNat_ofNat ..

/-! ## The flags as numbers (10_state R21) -/

theorem flagByte_toNat (c : Bool) : (flagByte c).toNat = if c then 1 else 0 := by
  cases c <;> rfl

theorem carryFlag_toNat (a b : Byte) : (carryFlag a b).toNat = if a.toNat + b.toNat > 255 then 1 else 0 := by
  simp only [carryFlag, flagByte_toNat, decide_eq_true_eq, gt_iff_lt]

/-- At the default of SUB_EQ_FLAG equal operands count as no borrow (D7; log 8). -/
theorem noBorrowFlag_toNat (a b : Byte) : (noBorrowFlag a b).toNat = if a.toNat ≥ b.toNat then 1 else 0 := by
  by_cases heq : a = b
  · rw [noBorrowFlag, if_pos heq, if_pos (by rw [heq])]
    rfl
  · have hne : a.toNat ≠ b.toNat := BitVec.toNat_ne.mp heq
    simp only [noBorrowFlag, if_neg heq, flagByte_toNat, decide_eq_true_eq, ge_iff_le, hne.symm.le_iff_lt]

theorem flagByte_getLsbD_toNat (a : Byte) (j : Nat) : (flagByte (a.getLsbD j)).toNat = a.toNat / 2 ^ j % 2 := by
  rw [flagByte_toNat, BitVec.getLsbD, Nat.testBit_eq_decide_div_mod_eq]
  simp only [decide_eq_true_eq]
  split <;> omega

theorem shrFlag_toNat (a : Byte) : (shrFlag a).toNat = a.toNat % 2 := by
  rw [shrFlag, flagByte_getLsbD_toNat, pow_zero, Nat.div_one]

/-- Bit 7 is all that is left of a byte above its seven low bits. -/
theorem shlFlag_toNat (a : Byte) : (shlFlag a).toNat = a.toNat / 128 := by
  have := a.isLt
  rw [shlFlag, flagByte_getLsbD_toNat]
  omega

/-! ## The statements -/

/-- Settles O11: the three write one result, and the sum wraps. -/
theorem loadsAndImmediateAdd : Obligations.LoadsAndImmediateAdd := fun _ _ _ _ =>
  ⟨hasOpcode_of_encXI 0x6 rfl rfl, hasOpcode_of_encXI 0x7 rfl rfl, hasOpcode_of_encXY 0x8 0x0 rfl rfl,
    writesOneReg_of_exec rfl rfl, writesOneReg_of_exec rfl (addResult_toNat ..), writesOneReg_of_exec rfl rfl⟩

/-- Settles O12: the three write one result, whose bits are the operation on the bits of the operands. -/
theorem bitwiseOperations : Obligations.BitwiseOperations := fun _ _ _ =>
  ⟨hasOpcode_of_encXY 0x8 0x1 rfl rfl, hasOpcode_of_encXY 0x8 0x2 rfl rfl, hasOpcode_of_encXY 0x8 0x3 rfl rfl,
    ⟨_, writesOneReg_of_exec rfl (BitVec.toNat_or ..), fun _ _ => Nat.testBit_or ..⟩,
    ⟨_, writesOneReg_of_exec rfl (BitVec.toNat_and ..), fun _ _ => Nat.testBit_and ..⟩,
    ⟨_, writesOneReg_of_exec rfl (BitVec.toNat_xor ..), fun _ _ => Nat.testBit_xor ..⟩⟩

/-- Settles O13: the flag and the result are the carry and the wrapped value of one exact sum. -/
theorem addWritesCarryThenSum : Obligations.AddWritesCarryThenSum := fun _ _ _ =>
  ⟨hasOpcode_of_encXY 0x8 0x4 rfl rfl,
    writesFlagThenResult_of_exec rfl (carryFlag_toNat ..) (addResult_toNat ..)⟩

/-- Settles O14: SUBN is SUB with its operands exchanged. -/
theorem subtractsWriteNotBorrowThenDifference : Obligations.SubtractsWriteNotBorrowThenDifference := fun _ _ _ =>
  ⟨hasOpcode_of_encXY 0x8 0x5 rfl rfl, hasOpcode_of_encXY 0x8 0x7 rfl rfl,
    writesFlagThenResult_of_exec rfl (noBorrowFlag_toNat ..) (subResult_toNat ..),
    writesFlagThenResult_of_exec rfl (noBorrowFlag_toNat ..) (subResult_toNat ..)⟩

/-- Settles O15: flag and result are both taken from V[X] as it was, and neither names V[Y]. -/
theorem shiftsWriteTheBitShiftedOut : Obligations.ShiftsWriteTheBitShiftedOut := fun _ _ _ =>
  ⟨hasOpcode_of_encXY 0x8 0x6 rfl rfl, hasOpcode_of_encXY 0x8 0xE rfl rfl,
    writesFlagThenResult_of_exec rfl (shrFlag_toNat _) (shrResult_toNat _),
    writesFlagThenResult_of_exec rfl (shlFlag_toNat _) (shlResult_toNat _)⟩

theorem rndResult_getLsbD (v r nn : Byte) (j : Nat) :
    (rndResult v r nn).getLsbD j = (v.getLsbD j && (r.getLsbD j && nn.getLsbD j)) := by
  rw [rndResult, BitVec.getLsbD_and, BitVec.getLsbD_and]

/-- Settles O16: the masks are applied bit by bit to a draw that nothing is said of, and the draw is counted. -/
theorem randomByteIsMaskedIntoTheRegister : Obligations.RandomByteIsMaskedIntoTheRegister := by
  intro x nn s
  refine ⟨hasOpcode_of_encXI 0xC rfl rfl, _, rfl, fun j => ?_, rfl, rfl, regsKeptBut_setReg rfl x _, rfl,
    fun _ => rfl, ⟨rfl, rfl⟩, ⟨rfl, rfl⟩, ⟨rfl, rfl⟩, ⟨rfl, rfl⟩, ⟨rfl, rfl⟩, rfl, rfl⟩
  exact (congrArg (BitVec.getLsbD · j) (State.reg_setReg_pcPlus2_same ..)).trans (rndResult_getLsbD ..)

end Sys2Proof.Machine
end

section
/-! The index register and memory (43_index_memory R140 to R145): the frames of the two kinds of write, the answers of the
instructions where they raise no fault, and the bytes of the stored digits. -/

namespace Sys2Proof.Machine

/-! ## The opcodes with a fixed low byte, and exact values -/

theorem hasOpcode_of_encXI_lowByte {i : Instr} (t : Nibble) (nn : Byte) {x : RegId} (hwf : i.wellFormed = true)
    (henc : encode i = encXI t x nn) : HasOpcode i (t.toNat * 0x1000 + nn.toNat + 0x100 * x.val) :=
  hasOpcode_of_encode hwf (by rw [henc, encXI_toNat]; omega)

/-- A number below the width's bound is kept exactly. -/
theorem toNat_ofNat_of_lt {w n : Nat} (h : n < 2 ^ w) : (BitVec.ofNat w n).toNat = n := by
  rw [BitVec.toNat_ofNat, Nat.mod_eq_of_lt h]

/-! ## The frames -/

theorem onlyIndexChanges_setI (s : State) (a : Word) : OnlyIndexChanges s { s with I := a }.pcPlus2 :=
  ⟨fun _ => rfl, fun _ => rfl, ⟨rfl, rfl⟩, ⟨rfl, rfl⟩, ⟨rfl, rfl⟩, ⟨rfl, rfl⟩, ⟨rfl, rfl⟩, rfl, rfl, rfl⟩

theorem onlyMemChanges_writeBytes (s : State) (a : Nat) {bs : List Byte} {n : Nat} (hlen : bs.length = n) :
    OnlyMemChanges a n s { s with mem := s.mem.writeBytes a bs }.pcPlus2 := by
  refine ⟨fun b hb => ?_, fun _ => rfl, rfl, ⟨rfl, rfl⟩, ⟨rfl, rfl⟩, ⟨rfl, rfl⟩, ⟨rfl, rfl⟩, ⟨rfl, rfl⟩, rfl, rfl, rfl⟩
  exact Memory.read_writeBytes_outside s.mem bs (by rwa [hlen])

/-! ## The answers without a fault -/

theorem exec_addI_of_fits {x : RegId} {s : State} (h : s.I.toNat + (s.reg x).toNat ≤ 0xFFFF) :
    exec (.addI x) s = .next { s with I := BitVec.ofNat 16 (s.I.toNat + (s.reg x).toNat) }.pcPlus2 :=
  ((execAddI_cases x s).resolve_left fun k => absurd h (Nat.not_le.mpr k.1)).2

theorem exec_ldF_of_digit {x : RegId} {s : State} (h : (s.reg x).toNat ≤ 15) :
    exec (.ldF x) s = .next { s with I := BitVec.ofNat 16 (fontAddr (s.reg x).toNat) }.pcPlus2 :=
  ((execLdF_cases x s).resolve_left fun k => absurd h (Nat.not_le.mpr k.1)).2

theorem exec_ldB_of_fits {x : RegId} {s : State} (h : s.I.toNat + 2 < 4096) :
    exec (.ldB x) s = .next { s with mem := s.mem.writeBytes s.I.toNat (bcdDigits (s.reg x)) }.pcPlus2 :=
  ((execLdB_cases x s).resolve_left fun k => absurd h (Nat.not_lt.mpr k.1)).2

theorem exec_ldMemVx_of_fits {x : RegId} {s : State} (h : s.I.toNat + x.val < 4096) :
    exec (.ldMemVx x) s = .next { s with mem := s.mem.writeBytes s.I.toNat (s.regsUpTo x) }.pcPlus2 :=
  ((execLdMemVx_cases x s).resolve_left fun k => absurd h (Nat.not_lt.mpr k.1)).2

theorem exec_ldVxMem_of_fits {x : RegId} {s : State} (h : s.I.toNat + x.val < 4096) :
    exec (.ldVxMem x) s = .next (s.loadRegsUpTo x s.I.toNat).pcPlus2 :=
  ((execLdVxMem_cases x s).resolve_left fun k => absurd h (Nat.not_lt.mpr k.1)).2

/-! ## The digits of FX33 -/

/-- The hundreds, tens and ones of a byte as numbers: each fits its byte. -/
theorem bcdDigits_map_toNat (v : Byte) :
    (bcdDigits v).map BitVec.toNat = [v.toNat / 100, v.toNat / 10 % 10, v.toNat % 10] := by
  have hdigit (n : Nat) (h : n < 10) : (BitVec.ofNat 8 n).toNat = n := toNat_ofNat_of_lt (by omega)
  have := v.isLt
  simp only [bcdDigits, List.map_cons, List.map_nil]
  rw [hdigit _ (by omega), hdigit _ (by omega), hdigit _ (by omega)]

/-- Three digits within memory are read back place by place. -/
theorem Memory.read_writeBytes_bcdDigits {m : Memory} {a j : Nat} (v : Byte) (hmem : m.wf = true) (hfits : a + 2 < 4096)
    (hj : j < 3) : ((m.writeBytes a (bcdDigits v)).read (a + j)).toNat =
      [v.toNat / 100, v.toNat / 10 % 10, v.toNat % 10][j] := by
  have hle : a + (bcdDigits v).length ≤ Config.memSize := by rw [bcdDigits_length, Config.memSize]; omega
  have hplace : j < ((bcdDigits v).map BitVec.toNat).length := hj
  calc ((m.writeBytes a (bcdDigits v)).read (a + j)).toNat
      = ((bcdDigits v)[j]'hj).toNat := congrArg BitVec.toNat (Memory.read_writeBytes_inside _ hmem hle hj)
    _ = ((bcdDigits v).map BitVec.toNat)[j] := (List.getElem_map ..).symm
    _ = _ := List.getElem_of_eq (bcdDigits_map_toNat v) hplace

/-! ## The statements -/

/-- Settles O17: the one answer writes I alone, with NNN zero-extended. -/
theorem loadIndexImmediate : Obligations.LoadIndexImmediate := fun nnn s =>
  ⟨hasOpcode_of_encode rfl (encA_toNat 0xA nnn), _, rfl, zextAddr_toNat nnn, rfl, onlyIndexChanges_setI s _⟩

/-- Settles O18: above 0xFFFF the fault of the table, else a sum that 16 bits hold. -/
theorem addToIndexOrOverflow : Obligations.AddToIndexOrOverflow := by
  intro x s
  refine ⟨hasOpcode_of_encXI_lowByte 0xF 0x1E rfl rfl, fun hover => raises_of_tableFault (if_pos hover), fun hfits => ?_⟩
  have hsum := toNat_ofNat_of_lt (w := 16) (Nat.lt_succ_of_le hfits)
  exact ⟨_, exec_addI_of_fits hfits, hsum, rfl, onlyIndexChanges_setI s _⟩

/-- Settles O19: above 15 the fault of the table, else a glyph address that 16 bits hold. -/
theorem fontPointerOrFontIndex : Obligations.FontPointerOrFontIndex := by
  intro x s
  refine ⟨hasOpcode_of_encXI_lowByte 0xF 0x29 rfl rfl, fun hbad => raises_of_tableFault (if_pos hbad), fun hdigit => ?_⟩
  have haddr : (BitVec.ofNat 16 (fontAddr (s.reg x).toNat)).toNat = 0x050 + 5 * (s.reg x).toNat :=
    toNat_ofNat_of_lt (by simp only [fontAddr, fontBase]; omega)
  exact ⟨_, exec_ldF_of_digit hdigit, haddr, rfl, onlyIndexChanges_setI s _⟩

/-- Settles O20: outside memory the fault of the table, else the three digits are read back and nothing around them. -/
theorem bcdStoreOrMemBounds : Obligations.BcdStoreOrMemBounds := by
  intro x s hmem
  refine ⟨hasOpcode_of_encXI_lowByte 0xF 0x33 rfl rfl, fun hbad => raises_of_tableFault (if_pos hbad), fun hfits => ?_⟩
  have hread {j : Nat} (hj : j < 3) := Memory.read_writeBytes_bcdDigits (s.reg x) hmem hfits hj
  exact ⟨_, exec_ldB_of_fits hfits, hread (j := 0) (by decide), hread (j := 1) (by decide), hread (j := 2) (by decide), rfl,
    onlyMemChanges_writeBytes s _ (bcdDigits_length _)⟩

/-- Settles O21: outside memory the fault of the table, else the row is read back register by register and nothing around
it has changed. -/
theorem registerDumpOrMemBounds : Obligations.RegisterDumpOrMemBounds := by
  intro x s hmem
  refine ⟨hasOpcode_of_encXI_lowByte 0xF 0x55 rfl rfl, fun hbad => raises_of_tableFault (if_pos hbad), fun hfits => ?_⟩
  exact ⟨_, exec_ldMemVx_of_fits hfits, fun _ => State.read_writeBytes_regsUpTo hmem hfits, rfl,
    onlyMemChanges_writeBytes s _ (regsUpTo_length s x)⟩

/-- Settles O22: outside memory the fault of the table, else every register up to V[X] is the byte at its place. -/
theorem registerLoadOrMemBounds : Obligations.RegisterLoadOrMemBounds := by
  intro x s
  refine ⟨hasOpcode_of_encXI_lowByte 0xF 0x65 rfl rfl, fun hbad => raises_of_tableFault (if_pos hbad), fun hfits => ?_⟩
  have hloaded (j : RegId) (hj : j ≤ x) :
      (s.loadRegsUpTo x s.I.toNat).pcPlus2.reg j = s.mem.read (s.I.toNat + j.val) := by
    rw [State.pcPlus2_reg, State.reg_loadRegsUpTo, if_pos hj]
  exact ⟨_, exec_ldVxMem_of_fits hfits, hloaded, rfl, onlyRegsChange_setV (regsKeptBut_loadRegsUpTo s x _)⟩

end Sys2Proof.Machine
end

section
/-! The display (44_display R150 to R153). A drawing is one relation between two canvases: the cells under a given set of bits
are inverted, and the collision says whether a lit one was among them. A plotted bit, a sprite row and a whole sprite stand in
it by composing drawings that share no cell; the statements about DRW are read off the drawing of its sprite. -/

namespace Sys2Proof.Machine

/-! ## The cells of the framebuffer -/

theorem Framebuffer.cell_eq_pixel (fb : Framebuffer) {px : Nat} (py : Nat) (hx : px < 64) :
    fb.cell (py * 64 + px) = fb.pixel px py := by
  rw [Framebuffer.cell, show (py * 64 + px) % 64 = px by omega, show (py * 64 + px) / 64 = py by omega]

@[simp] theorem Framebuffer.cell_clear (j : Nat) : Framebuffer.clear.cell j = false :=
  Framebuffer.pixel_clear ..

/-- The 2048 cells are all there is of a framebuffer. -/
theorem Framebuffer.ext_cell {fb fb' : Framebuffer}
    (h : ∀ px py, px < 64 → py < 32 → fb.cell (py * 64 + px) = fb'.cell (py * 64 + px)) : fb = fb' := by
  refine Vector.ext fun py hy => BitVec.eq_of_getLsbD_eq fun px hx => ?_
  have hcell := h px py hx hy
  simpa only [Framebuffer.cell_eq_pixel _ _ hx, Framebuffer.pixel, dif_pos hy] using hcell

/-- A lit cell of the screen lies under one of the bits. -/
def Framebuffer.LitUnder (fb : Framebuffer) (bits : Nat → Nat → Bool) : Prop :=
  ∃ px py, px < 64 ∧ py < 32 ∧ fb.cell (py * 64 + px) = true ∧ bits px py = true

theorem Framebuffer.not_litUnder_clear (bits : Nat → Nat → Bool) : ¬ Framebuffer.clear.LitUnder bits := by
  rintro ⟨px, py, -, -, hlit, -⟩
  rw [Framebuffer.cell_clear] at hlit
  cases hlit

theorem Framebuffer.litUnder_or_iff (fb : Framebuffer) (p q : Nat → Nat → Bool) :
    fb.LitUnder (fun px py => p px py || q px py) ↔ fb.LitUnder p ∨ fb.LitUnder q := by
  simp only [Framebuffer.LitUnder, Bool.or_eq_true, and_or_left, exists_or]

/-! ## Drawings -/

/-- From `c` to `d` exactly the cells under the bits are inverted, and `d` has a collision if `c` had one or a lit cell lay
under a bit (R151). Bits off the screen have no effect (R153). -/
structure Canvas.Inverts (c : Canvas) (bits : Nat → Nat → Bool) (d : Canvas) : Prop where
  cell : ∀ px py, px < 64 → py < 32 → d.fb.cell (py * 64 + px) = (c.fb.cell (py * 64 + px) ^^ bits px py)
  collision : d.collision = true ↔ c.collision = true ∨ c.fb.LitUnder bits

theorem Canvas.Inverts.of_eq {c d : Canvas} {p q : Nat → Nat → Bool} (h : c.Inverts p d)
    (hpq : ∀ px py, p px py = q px py) : c.Inverts q d :=
  funext₂ hpq ▸ h

theorem Canvas.inverts_refl (c : Canvas) : c.Inverts (fun _ _ => false) c where
  cell _ _ _ _ := (Bool.xor_false _).symm
  collision := by simp [Framebuffer.LitUnder]

/-- The second of two drawings that share no cell finds its cells as they were before the first. -/
theorem Canvas.Inverts.litUnder_iff {c d : Canvas} {p q : Nat → Nat → Bool} (h : c.Inverts p d)
    (hdisjoint : ∀ px py, q px py = true → p px py = false) : d.fb.LitUnder q ↔ c.fb.LitUnder q := by
  have hsame (px py : Nat) (hx : px < 64) (hy : py < 32) (hq : q px py = true) :
      d.fb.cell (py * 64 + px) = c.fb.cell (py * 64 + px) := by
    rw [h.cell px py hx hy, hdisjoint px py hq, Bool.xor_false]
  constructor
  · rintro ⟨px, py, hx, hy, hlit, hq⟩
    exact ⟨px, py, hx, hy, hsame px py hx hy hq ▸ hlit, hq⟩
  · rintro ⟨px, py, hx, hy, hlit, hq⟩
    exact ⟨px, py, hx, hy, (hsame px py hx hy hq).trans hlit, hq⟩

/-- Two drawings that share no cell are one drawing of all their bits. -/
theorem Canvas.Inverts.trans {c d e : Canvas} {p q : Nat → Nat → Bool} (hcd : c.Inverts p d) (hde : d.Inverts q e)
    (hdisjoint : ∀ px py, q px py = true → p px py = false) : c.Inverts (fun px py => p px py || q px py) e where
  cell px py hx hy := by
    rw [hde.cell px py hx hy, hcd.cell px py hx hy, Bool.xor_assoc]
    cases hq : q px py
    · rw [Bool.xor_false, Bool.or_false]
    · rw [hdisjoint px py hq, Bool.false_xor, Bool.false_or]
  collision := by
    rw [hde.collision, hcd.collision, hcd.litUnder_iff hdisjoint, Framebuffer.litUnder_or_iff, or_assoc]

/-! ## A plotted bit, a sprite row, a sprite -/

theorem Canvas.inverts_plot (c : Canvas) (x y : Nat) (bit : Bool) :
    c.Inverts (fun px py => bit && decide (px = x ∧ py = y)) (c.plot x y bit) where
  cell px py hx hy := by
    rw [Framebuffer.cell_eq_pixel _ py hx, Framebuffer.cell_eq_pixel _ py hx, Canvas.pixel_plot c x y bit px py hx]
    by_cases hrow : py = y
    · subst hrow
      simp [hy]
    · simp [hrow]
  collision := by
    rw [Canvas.collision_plot, Bool.or_eq_true, Bool.and_eq_true, Bool.and_eq_true, decide_eq_true_eq]
    refine or_congr_right ⟨?_, ?_⟩
    · rintro ⟨⟨hbit, hx⟩, hlit⟩
      have hy : y < 32 := by
        by_contra hy
        simp [Framebuffer.pixel, hy] at hlit
      exact ⟨x, y, hx, hy, (Framebuffer.cell_eq_pixel _ y hx).trans hlit, by simp [hbit]⟩
    · rintro ⟨px, py, hx, -, hlit, hbit⟩
      simp only [Bool.and_eq_true, decide_eq_true_eq] at hbit
      obtain ⟨hset, rfl, rfl⟩ := hbit
      exact ⟨⟨hset, hx⟩, Framebuffer.cell_eq_pixel _ py hx ▸ hlit⟩

/-- The bit that the first n columns of a sprite row with its leftmost pixel at (x0, y) have at the cell (px, py). -/
def rowBit (b : Byte) (x0 y n px py : Nat) : Bool :=
  decide (x0 ≤ px ∧ px < x0 + n ∧ py = y) && b.getLsbD (7 - (px - x0))

theorem rowBit_succ (b : Byte) (x0 y n px py : Nat) :
    (rowBit b x0 y n px py || (b.getLsbD (7 - n) && decide (px = x0 + n ∧ py = y))) = rowBit b x0 y (n + 1) px py := by
  unfold rowBit
  by_cases hlast : px = x0 + n
  · subst hlast
    simp [Bool.and_comm]
  · have hcols : px < x0 + (n + 1) ↔ px < x0 + n := by omega
    simp only [hlast, hcols, false_and, decide_false, Bool.and_false, Bool.or_false]

theorem Canvas.inverts_plotCols (c : Canvas) (b : Byte) (x0 y n : Nat) :
    c.Inverts (rowBit b x0 y n) (c.plotCols b x0 y n) := by
  induction n with
  | zero => exact c.inverts_refl.of_eq fun px py => by rw [rowBit, decide_eq_false (by omega), Bool.false_and]
  | succ n ih =>
    refine (ih.trans (Canvas.inverts_plot _ (x0 + n) y (b.getLsbD (7 - n))) fun px py h => ?_).of_eq (rowBit_succ b x0 y n)
    simp only [Bool.and_eq_true, decide_eq_true_eq] at h
    obtain ⟨-, rfl, -⟩ := h
    simp [rowBit]

/-- A sprite is its first row and the sprite of the other rows below it. -/
theorem spriteBit_succ (m : Memory) (base n x0 y px py : Nat) :
    (rowBit (m.read base) x0 y 8 px py || spriteBit m (base + 1) n x0 (y + 1) px py) =
      spriteBit m base (n + 1) x0 y px py := by
  unfold rowBit spriteBit
  by_cases hfirst : py = y
  · subst hfirst
    simp
  · by_cases habove : py < y
    · simp [hfirst, show ¬ y + 1 ≤ py by omega, show ¬ y ≤ py by omega]
    · have hrow : base + 1 + (py - (y + 1)) = base + (py - y) := by omega
      have hrange : (y + 1 ≤ py ∧ py < y + 1 + n) ↔ (y ≤ py ∧ py < y + (n + 1)) := by omega
      simp only [hfirst, hrow, hrange, and_false, decide_false, Bool.false_and, Bool.false_or]

theorem Canvas.inverts_plotRows (m : Memory) (x0 n : Nat) (c : Canvas) (base y : Nat) :
    c.Inverts (spriteBit m base n x0 y) (c.plotRows x0 y (m.readBytes base n)) := by
  induction n generalizing c base y with
  | zero => exact c.inverts_refl.of_eq fun px py => by rw [spriteBit, decide_eq_false (by omega), Bool.false_and]
  | succ n ih =>
    refine ((c.inverts_plotCols (m.read base) x0 y 8).trans (ih _ (base + 1) (y + 1)) fun px py h => ?_).of_eq
      (spriteBit_succ m base n x0 y)
    simp only [spriteBit, Bool.and_eq_true, decide_eq_true_eq] at h
    obtain ⟨⟨-, -, hrow, -⟩, -⟩ := h
    simp [rowBit, show py ≠ y by omega]

/-! ## DRW where it raises no fault -/

/-- The bits of the sprite that DRW draws in `s`. -/
def State.spriteBits (s : State) (x y : RegId) (n : Nibble) : Nat → Nat → Bool :=
  spriteBit s.mem s.I.toNat n.toNat (s.reg x).toNat (s.reg y).toNat

/-- The canvas after DRW has drawn its sprite in `s`. -/
def State.drawnCanvas (s : State) (x y : RegId) (n : Nibble) : Canvas :=
  s.drawSprite (s.reg x).toNat (s.reg y).toNat s.I.toNat n.toNat

/-- The state in which a DRW completes that does not fault. -/
def State.afterDraw (s : State) (x y : RegId) (n : Nibble) : State :=
  ({ s with fb := (s.drawnCanvas x y n).fb, dirty := true }.setReg 15 (collisionFlag (s.drawnCanvas x y n).collision)).pcPlus2

theorem exec_drw_of_fits {x y : RegId} {n : Nibble} {s : State} (h : ¬ (n.toNat > 0 ∧ s.I.toNat + n.toNat - 1 ≥ 4096)) :
    exec (.drw x y n) s = .next (s.afterDraw x y n) :=
  ((execDrw_cases x y n s).resolve_left fun ⟨hn, hbad, _⟩ => h ⟨hn, by omega⟩).2

theorem State.inverts_drawnCanvas (s : State) (x y : RegId) (n : Nibble) :
    Canvas.Inverts ⟨s.fb, false⟩ (s.spriteBits x y n) (s.drawnCanvas x y n) :=
  Canvas.inverts_plotRows s.mem ..

theorem State.cell_afterDraw (s : State) (x y : RegId) (n : Nibble) {px py : Nat} (hx : px < 64) (hy : py < 32) :
    (s.afterDraw x y n).fb.cell (py * 64 + px) = (s.fb.cell (py * 64 + px) ^^ s.spriteBits x y n px py) :=
  (s.inverts_drawnCanvas x y n).cell px py hx hy

theorem State.drawnCanvas_collision_iff (s : State) (x y : RegId) (n : Nibble) :
    (s.drawnCanvas x y n).collision = true ↔ s.fb.LitUnder (s.spriteBits x y n) :=
  (s.inverts_drawnCanvas x y n).collision.trans (or_iff_right Bool.false_ne_true)

theorem State.flag_afterDraw (s : State) (x y : RegId) (n : Nibble) :
    (s.afterDraw x y n).reg 15 = flagByte (s.drawnCanvas x y n).collision :=
  State.reg_setReg_pcPlus2_same ..

theorem State.flag_afterDraw_of_litUnder {s : State} {x y : RegId} {n : Nibble} (h : s.fb.LitUnder (s.spriteBits x y n)) :
    (s.afterDraw x y n).reg 15 = 1 := by
  rw [State.flag_afterDraw, (s.drawnCanvas_collision_iff x y n).mpr h]
  rfl

theorem State.flag_afterDraw_of_not_litUnder {s : State} {x y : RegId} {n : Nibble}
    (h : ¬ s.fb.LitUnder (s.spriteBits x y n)) : (s.afterDraw x y n).reg 15 = 0 := by
  rw [State.flag_afterDraw, Bool.eq_false_iff.mpr (mt (s.drawnCanvas_collision_iff x y n).mp h)]
  rfl

theorem State.regsKeptBut_afterDraw (s : State) (x y : RegId) (n : Nibble) : RegsKeptBut (· = 15) s (s.afterDraw x y n) :=
  regsKeptBut_setReg rfl 15 _

/-- With its coordinates outside VF, a second DRW draws the same sprite at the same place. -/
theorem State.spriteBits_afterDraw (s : State) {x y : RegId} (n : Nibble) (hx : x ≠ 15) (hy : y ≠ 15) :
    (s.afterDraw x y n).spriteBits x y n = s.spriteBits x y n := by
  have hkept := s.regsKeptBut_afterDraw x y n
  unfold State.spriteBits
  rw [hkept x hx, hkept y hy]
  rfl

/-- A second DRW of the same sprite at the same place inverts every inverted cell back. -/
theorem State.fb_afterDraw_afterDraw (s : State) {x y : RegId} (n : Nibble) (hx : x ≠ 15) (hy : y ≠ 15) :
    ((s.afterDraw x y n).afterDraw x y n).fb = s.fb := by
  refine Framebuffer.ext_cell fun px py hpx hpy => ?_
  rw [State.cell_afterDraw _ x y n hpx hpy, State.cell_afterDraw s x y n hpx hpy, s.spriteBits_afterDraw n hx hy,
    Bool.xor_assoc, Bool.xor_self, Bool.xor_false]

/-- On a cleared screen DRW lights the cells under its bits. -/
theorem State.litUnder_afterDraw_of_clear {s : State} {x y : RegId} {n : Nibble} {px py : Nat}
    (hclear : s.fb = Framebuffer.clear) (hpx : px < 64) (hpy : py < 32) (hbit : s.spriteBits x y n px py = true) :
    (s.afterDraw x y n).fb.LitUnder (s.spriteBits x y n) := by
  refine ⟨px, py, hpx, hpy, ?_, hbit⟩
  rw [s.cell_afterDraw x y n hpx hpy, hclear, Framebuffer.cell_clear, Bool.false_xor, hbit]

/-! ## The statements -/

/-- Settles O23: the one answer holds the framebuffer whose cells are all 0. -/
theorem clearScreen : Obligations.ClearScreen :=
  ⟨hasOpcode_of_encode rfl rfl, fun _ => ⟨_, rfl, fun j _ => Framebuffer.cell_clear j, rfl, rfl, fun _ => rfl, rfl,
    fun _ => rfl, ⟨rfl, rfl⟩, ⟨rfl, rfl⟩, ⟨rfl, rfl⟩, ⟨rfl, rfl⟩, rfl, rfl, rfl⟩⟩

/-- Settles O24: outside memory the fault of the table, else the drawing of the sprite from no collision. -/
theorem drawInvertsTheCellsUnderTheSprite : Obligations.DrawInvertsTheCellsUnderTheSprite := by
  intro x y n s
  refine ⟨hasOpcode_of_encode rfl (by rw [encode, encXY_toNat, Nat.mul_comm x.val, Nat.mul_comm y.val]; rfl),
    fun hbad => raises_of_tableFault (if_pos hbad), fun hfits => ?_⟩
  exact ⟨_, exec_drw_of_fits hfits, fun _ _ => s.cell_afterDraw x y n, State.flag_afterDraw_of_litUnder,
    State.flag_afterDraw_of_not_litUnder, rfl, rfl, s.regsKeptBut_afterDraw x y n, rfl, fun _ => rfl, ⟨rfl, rfl⟩,
    ⟨rfl, rfl⟩, ⟨rfl, rfl⟩, ⟨rfl, rfl⟩, rfl, rfl, rfl⟩

/-- Settles O25: neither draw faults, the second draws the bits of the first, and what the first lit the second hits. -/
theorem secondDrawUndoesTheFirst : Obligations.SecondDrawUndoesTheFirst := by
  intro x y n s hx hy hinside
  have hfits : ¬ (n.toNat > 0 ∧ s.I.toNat + n.toNat - 1 ≥ 4096) := by omega
  refine ⟨_, exec_drw_of_fits hfits, _, exec_drw_of_fits hfits, s.fb_afterDraw_afterDraw n hx hy, fun hclear => ⟨?_, ?_⟩⟩
  · exact State.flag_afterDraw_of_not_litUnder (hclear ▸ Framebuffer.not_litUnder_clear _)
  · rintro ⟨px, py, hpx, hpy, hbit⟩
    refine State.flag_afterDraw_of_litUnder ?_
    rw [s.spriteBits_afterDraw n hx hy]
    exact State.litUnder_afterDraw_of_clear hclear hpx hpy hbit

end Sys2Proof.Machine
end

section
/-! Keys and timers (45_keys_timers R160 to R166): the key skips where V[X] names a key, the wait of FX0A and the key press
that ends it, the moves to and from the timers and the tick of their cycle. -/

namespace Sys2Proof.Machine

/-! ## The key skips without a fault -/

theorem exec_skp_of_key {x : RegId} {s : State} (h : (s.reg x).toNat ≤ 15) :
    exec (.skp x) s = .next (s.skipIf (s.keyDown (s.reg x).toNat)) :=
  ((execSkp_cases x s).resolve_left fun k => absurd h (Nat.not_le.mpr k.1)).2

theorem exec_sknp_of_key {x : RegId} {s : State} (h : (s.reg x).toNat ≤ 15) :
    exec (.sknp x) s = .next (s.skipIf (!s.keyDown (s.reg x).toNat)) :=
  ((execSknp_cases x s).resolve_left fun k => absurd h (Nat.not_le.mpr k.1)).2

/-! ## The whole cycle of an instruction that completes -/

/-- When it is ready to, a step on the word of an instruction executes it and ends the cycle. -/
theorem ReadyToCycle.step_eq_endCycle {s t : State} {i : Instr} (h : ReadyToCycle s) (hop : WordAtPc s (encode i))
    (hwf : i.wellFormed = true) (ht : exec i { s with phase := .executing } = .next t) : step s = .next t.endCycle :=
  (h.step_eq hop (decodeInvertsEncode i hwf)).trans (executeAndTick_next ht)

/-- The cycle of an instruction that leaves the status as it was ends with the tick (10_state R40). -/
theorem ReadyToCycle.step_eq_timerTick {s t : State} {i : Instr} (h : ReadyToCycle s) (hop : WordAtPc s (encode i))
    (hwf : i.wellFormed = true) (ht : exec i { s with phase := .executing } = .next t) (hstatus : t.status = s.status) :
    step s = .next t.timerTick := by
  have ⟨_, _, hrunning⟩ := h
  rw [h.step_eq_endCycle hop hwf ht, State.endCycle_running (hstatus.trans hrunning)]

theorem State.soundActive_iff (s : State) : s.soundActive = true ↔ 0 < s.ST.toNat := by
  rw [State.soundActive, bne_iff_ne, BitVec.toNat_ne, Nat.pos_iff_ne_zero]
  rfl

theorem State.soundActive_timerTick_iff (s : State) : s.timerTick.soundActive = true ↔ 1 < s.ST.toNat := by
  rw [State.soundActive_iff, State.timerTick_ST, tickDown_toNat, Nat.sub_pos_iff_lt]

/-- A timer loaded is one lower at the end of its cycle, FX07 reads before the tick, and the other timer ticks too
(10_state R41). -/
theorem ReadyToCycle.timerCycles {s : State} (h : ReadyToCycle s) (x : RegId) : TimerCycles x s := by
  refine ⟨fun hop => ?_, fun hop => ?_, fun hop => ?_⟩
  · exact ⟨_, h.step_eq_timerTick hop rfl rfl rfl, tickDown_toNat _, tickDown_toNat _⟩
  · exact ⟨_, h.step_eq_timerTick hop rfl rfl rfl, tickDown_toNat _, tickDown_toNat _, State.soundActive_timerTick_iff _⟩
  · exact ⟨_, h.step_eq_timerTick hop rfl rfl rfl, State.reg_setReg_pcPlus2_same .., tickDown_toNat _, tickDown_toNat _⟩

/-! ## The wait for a key -/

/-- The state that FX0A makes (R162). -/
def State.waitForKey (s : State) (x : RegId) : State := { s with keyTarget := x, status := .awaitingKey }

@[simp] theorem State.waitForKey_status (s : State) (x : RegId) : (s.waitForKey x).status = .awaitingKey := rfl
@[simp] theorem State.waitForKey_phase (s : State) (x : RegId) : (s.waitForKey x).phase = s.phase := rfl

theorem exec_ldVxK (x : RegId) (s : State) : exec (.ldVxK x) s = .next (s.waitForKey x) := rfl

/-- The cycle of FX0A closes the boot window and ends without a tick. -/
theorem ReadyToCycle.step_ldVxK {s : State} {x : RegId} (h : ReadyToCycle s) (hop : WordAtPc s (encode (.ldVxK x))) :
    step s = .next (State.waitForKey { s with phase := .executing } x) := by
  rw [h.step_eq_endCycle hop rfl (exec_ldVxK x _), State.endCycle_idle (by simp)]

/-! ## The host's events after the first reset -/

theorem applyEvent_setKeys {s : State} (k : BitVec 16) (h : s.phase ≠ .unreset) :
    applyEvent (.setKeys k) s = .next (s.setKeys k) := if_neg h

theorem applyEvent_consumeDirty {s : State} (h : s.phase ≠ .unreset) :
    applyEvent .consumeDirty s = .next s.consumeDirty := if_neg h

theorem applyEvent_keyPress {s : State} (k : Nibble) (h : s.phase ≠ .unreset) :
    applyEvent (.keyPress k) s = .next (s.keyPress k) := if_neg h

/-! ## The statements -/

/-- Settles O26: without a key V[X] the fault of the table, else a skip on the state of that key. -/
theorem keySkipsOrKeyIndex : Obligations.KeySkipsOrKeyIndex := by
  intro x s
  refine ⟨hasOpcode_of_encXI_lowByte 0xE 0x9E rfl rfl, hasOpcode_of_encXI_lowByte 0xE 0xA1 rfl rfl, fun hbad => ?_,
    fun hkey => ?_⟩
  · exact ⟨raises_of_tableFault (if_pos hbad), raises_of_tableFault (if_pos hbad)⟩
  · exact ⟨skipsIf_of_exec (exec_skp_of_key hkey) Iff.rfl,
      skipsIf_of_exec (exec_sknp_of_key hkey) (Bool.not_eq_true' _).to_iff⟩

/-- Settles O27: FX0A writes the target and the status alone; a cycle, held keys and a taken frame leave the wait as it is. -/
theorem keyReadWaits : Obligations.KeyReadWaits := by
  intro x s
  refine ⟨hasOpcode_of_encXI_lowByte 0xF 0x0A rfl rfl, ⟨_, exec_ldVxK x s, rfl, rfl, rfl, rfl, fun _ => rfl, rfl,
    fun _ => rfl, ⟨rfl, rfl⟩, ⟨rfl, rfl⟩, rfl, ⟨rfl, rfl⟩, rfl, rfl, rfl⟩, fun hready hop => ?_⟩
  have hphase : (State.waitForKey { s with phase := .executing } x).phase ≠ .unreset := by simp
  exact ⟨_, hready.step_ldVxK hop, rfl, rfl, rfl, fun _ => rfl, ⟨rfl, rfl⟩,
    cycleWhileWaitingOrFaultedChangesNothing _ hphase (by simp), fun k => ⟨_, applyEvent_setKeys k hphase, rfl, rfl, rfl⟩,
    _, applyEvent_consumeDirty hphase, rfl, rfl, rfl⟩

/-- Settles O28: each move has one answer, and its cycle ends with the tick. -/
theorem timerMoves : Obligations.TimerMoves := by
  intro x s
  refine ⟨hasOpcode_of_encXI_lowByte 0xF 0x07 rfl rfl, hasOpcode_of_encXI_lowByte 0xF 0x15 rfl rfl,
    hasOpcode_of_encXI_lowByte 0xF 0x18 rfl rfl, writesOneReg_of_exec rfl rfl, ?_, ?_, fun h => h.timerCycles x⟩
  · exact ⟨_, rfl, rfl, rfl, rfl, fun _ => rfl, rfl, fun _ => rfl, ⟨rfl, rfl⟩, ⟨rfl, rfl⟩, ⟨rfl, rfl⟩, ⟨rfl, rfl⟩, rfl, rfl,
      rfl⟩
  · exact ⟨_, rfl, rfl, rfl, rfl, fun _ => rfl, rfl, fun _ => rfl, ⟨rfl, rfl⟩, ⟨rfl, rfl⟩, ⟨rfl, rfl⟩, ⟨rfl, rfl⟩, rfl, rfl,
      rfl⟩

/-- Settles O44: a key press has its one effect in AwaitingKey, where the target receives the key number. -/
theorem keyPressCompletesTheWait : Obligations.KeyPressCompletesTheWait := by
  intro idx s hphase
  refine ⟨fun hwait => ?_, fun hidle => ?_⟩
  · have hkey : (s.setReg s.keyTarget (idx.setWidth 8)).pcPlus2.reg s.keyTarget = idx.setWidth 8 :=
      State.reg_setReg_pcPlus2_same ..
    have hnumber : (idx.setWidth 8).toNat = idx.toNat := BitVec.toNat_setWidth_of_le (by decide)
    exact ⟨_, (applyEvent_keyPress idx hphase).trans (congrArg _ (State.keyPress_awaiting idx hwait)),
      (congrArg BitVec.toNat hkey).trans hnumber, rfl, rfl, rfl,
      regsKeptBut_setReg rfl s.keyTarget (idx.setWidth 8), rfl, fun _ => rfl, ⟨rfl, rfl⟩, ⟨rfl, rfl⟩, ⟨rfl, rfl⟩,
      ⟨rfl, rfl⟩, rfl, rfl, rfl⟩
  · rw [applyEvent_keyPress idx hphase, State.keyPress_ignored idx hidle]

end Sys2Proof.Machine
end

section
/-! Exceptions and the host's two other events (60_exceptions R170 to R193): a cycle that ends Faulted is the one fault entry on
the state it started from, with the fetched word in the record; `set_keys` and `consume_dirty` write one element each. -/

namespace Sys2Proof.Machine

/-! ## A cycle that ends Faulted -/

/-- A completing instruction never ends Faulted, so an Execute that does has raised the fault of the table, and nothing ticks
(R181). -/
theorem faultEntry_of_executeAndTick {i : Instr} {s t : State} (hs : s.status = .running)
    (h : executeAndTick i s = .next t) (ht : t.status = .faulted) : ∃ c n, FaultEntry s t c (some (encode i)) n := by
  rcases exec_faultsOrCompletes i s with ⟨c, n, -, e⟩ | ⟨-, u, e, frame⟩
  · rw [executeAndTick_next e, State.endCycle_idle (by simp)] at h
    cases h
    exact ⟨c, n, State.faultEntry_takeFault ..⟩
  · cases (executeAndTick_next e).symm.trans h
    rw [State.endCycle_status] at ht
    exact absurd ht (frame.status_ne_faulted hs)

/-- The word of the record is the fetched one, whether it is rejected or its instruction faults (R176; log 12). -/
theorem faultEntry_of_runCycle {s t : State} {op : Word} (hs : s.status = .running) (hop : s.fetch = .ok op)
    (h : runCycle s = .next t) (ht : t.status = .faulted) : ∃ c n, FaultEntry s t c (some op) n := by
  cases hi : decodeOp op with
  | reject r =>
    cases (runCycle_of_rejected hop hi).symm.trans h
    exact ⟨_, _, State.faultEntry_takeFault ..⟩
  | ok i =>
    obtain ⟨rfl, -⟩ := encodeInvertsDecode op i hi
    exact faultEntry_of_executeAndTick hs ((runCycle_of_decoded hop hi).symm.trans h) ht

/-- Settles O34: without a word the fault is that of the fetch, with one it is that of Decode or Execute. -/
theorem faultingCycleHasNoOtherEffect : Obligations.FaultingCycleHasNoOtherEffect := by
  intro s t hphase hs h ht
  rw [applyEvent_cycle hphase, cycle_running hs] at h
  cases hop : s.fetch with
  | error e =>
    cases (runCycle_of_fetch_error (s := { s with phase := .executing }) hop).symm.trans h
    exact ⟨_, _, State.faultEntry_takeFault ..⟩
  | ok op => exact faultEntry_of_runCycle hs hop h ht

/-- Settles O35: Execute ends in the fault of the table or within the frame, which keeps the record and is never Faulted. -/
theorem faultsAreExactlyThoseOfTheTable : Obligations.FaultsAreExactlyThoseOfTheTable := by
  refine fun i s hs => ⟨fun _ _ => raises_of_tableFault, fun hnone => ?_⟩
  rcases exec_faultsOrCompletes i s with ⟨c, n, hfault, -⟩ | ⟨-, t, e, frame⟩
  · cases hfault.symm.trans hnone
  · exact ⟨t, e, frame.status_ne_faulted hs, frame.fault⟩

/-! ## `set_keys` and `consume_dirty` -/

/-- Settles O45: the one answer of the event replaces the key matrix by its argument. -/
theorem setKeysOverwritesTheKeyMatrix : Obligations.SetKeysOverwritesTheKeyMatrix := fun k s hphase =>
  ⟨s.setKeys k, applyEvent_setKeys k hphase, fun j => by rw [State.setKeys_keys], rfl, rfl, fun _ => rfl, rfl, fun _ => rfl,
    ⟨rfl, rfl⟩, ⟨rfl, rfl⟩, ⟨rfl, rfl⟩, ⟨rfl, rfl⟩, rfl, rfl, rfl⟩

theorem hostReply_consumeDirty_of_dirty {s : State} (h : s.dirty = true) : hostReply .consumeDirty s = .frame s.fb :=
  if_pos h

theorem hostReply_consumeDirty_of_clean {s : State} (h : s.dirty = false) : hostReply .consumeDirty s = .noFrame :=
  if_neg (by simp [h])

theorem State.consumeDirty_of_clean {s : State} (h : s.dirty = false) : s.consumeDirty = s := by
  rw [State.consumeDirty, ← h]

/-- Settles O46: the reply follows the flag, and clearing a clear flag is no change, so the second consume has no frame. -/
theorem consumeDirtyTakesTheFrameOnce : Obligations.ConsumeDirtyTakesTheFrameOnce := by
  intro s hphase
  have hconsume := applyEvent_consumeDirty hphase
  refine ⟨hostReply_consumeDirty_of_dirty, fun hclean => ⟨hostReply_consumeDirty_of_clean hclean, ?_⟩, ?_⟩
  · rw [hconsume, State.consumeDirty_of_clean hclean]
  · exact ⟨s.consumeDirty, hconsume, rfl, rfl, rfl, fun _ => rfl, rfl, fun _ => rfl, ⟨rfl, rfl⟩, ⟨rfl, rfl⟩, ⟨rfl, rfl⟩,
      ⟨rfl, rfl⟩, ⟨rfl, rfl, rfl⟩, hostReply_consumeDirty_of_clean (State.consumeDirty_dirty s)⟩

end Sys2Proof.Machine
end

section
/-! Reset and the boot window (70_reset_and_hazards R200, R201, R204): what `reset` leaves in every element, the refusals
before the first reset, and the ROM copied in the window that `reset` opens and a cycle closes. -/

namespace Sys2Proof.Machine

/-! ## The contents of memory after a reset -/

theorem memInitial_font {j : Nat} (h : j < 80) : memInitial (0x050 + j) = font.getD j 0 := by
  have hin : fontBase ≤ 0x050 + j ∧ 0x050 + j < fontBase + Config.fontLen := ⟨Nat.le_add_right .., Nat.add_lt_add_left h _⟩
  rw [memInitial, if_pos hin, fontBase, Nat.add_sub_cancel_left]

theorem memInitial_outside_font {a : Nat} (h : a < 0x050 ∨ 0x0A0 ≤ a) : memInitial a = 0 := by
  refine if_neg ?_
  rw [fontBase, Config.fontLen]
  omega

/-! ## The events and the boot window -/

theorem applyEvent_loadRom {s : State} (bytes : List Byte) (h : s.phase ≠ .unreset) :
    applyEvent (.loadRom bytes) s = s.loadRom bytes := if_neg h

theorem State.loadRom_fits {s : State} {bytes : List Byte} (h : s.phase = .boot) (hlen : bytes.length ≤ Config.romMax) :
    s.loadRom bytes = .next { s with mem := s.mem.writeBytes Config.progBase bytes } := by
  rw [State.loadRom, if_pos h, if_neg (Nat.not_lt.mpr hlen)]

theorem State.loadRom_tooLarge {s : State} {bytes : List Byte} (h : s.phase = .boot)
    (hlen : Config.romMax < bytes.length) : s.loadRom bytes = .next s := by
  rw [State.loadRom, if_pos h, if_pos hlen]

theorem State.loadRom_outsideBoot {s : State} (bytes : List Byte) (h : s.phase ≠ .boot) :
    s.loadRom bytes = .refused .loadRomOutsideBootWindow := if_neg h

theorem State.onlyMemChanges_rom (s : State) (a : Nat) (bytes : List Byte) :
    OnlyMemChanges a bytes.length s { s with mem := s.mem.writeBytes a bytes } :=
  ⟨fun _ => Memory.read_writeBytes_outside s.mem bytes, fun _ => rfl, rfl, ⟨rfl, rfl⟩, ⟨rfl, rfl⟩, ⟨rfl, rfl⟩, ⟨rfl, rfl⟩,
    ⟨rfl, rfl⟩, rfl, rfl, rfl⟩

@[simp] theorem State.endCycle_phase (s : State) : s.endCycle.phase = s.phase := by
  by_cases h : s.status = .running
  · rw [State.endCycle_running h, State.timerTick_phase]
  · rw [State.endCycle_idle h]

/-- A cycle that runs closes the boot window, whether it completes or faults (log 4). -/
theorem CycleEnd.phase_eq_executing {s t : State} (h : CycleEnd s t) (hs : s.status = .running) :
    t.phase = .executing := by
  cases h with
  | idle hidle => exact absurd hs hidle
  | faults => rfl
  | completes _ _ _ u _ _ _ frame => exact (State.endCycle_phase u).trans frame.phase

/-! ## The statements -/

/-- Settles O42: the check before the event's effect is met by each of the five. -/
theorem eventsBeforeTheFirstResetAreRefused : Obligations.EventsBeforeTheFirstResetAreRefused := by
  intro e s hphase hreset
  cases e with
  | reset => exact absurd rfl hreset
  | loadRom | cycle | setKeys | keyPress | consumeDirty => exact if_pos hphase

/-- Settles O41: the one answer of `reset` is the reset state, whose empty list of cells reads as the font table and 0;
that no other event leads out of Faulted is the transition table of R35. -/
theorem resetGivesEveryElementItsResetValue : Obligations.ResetGivesEveryElementItsResetValue := by
  refine ⟨fun s => ?_, fun e s t hs ht hne => ?_⟩
  · exact ⟨s.initialise, rfl, s.reg_initialise, rfl, rfl, fun _ => by simp, rfl, rfl, rfl,
      fun _ _ => memInitial_outside_font, fun _ => memInitial_font, fun _ => by simp, rfl, fun j _ => Framebuffer.cell_clear j,
      rfl, rfl, rfl⟩
  · obtain ⟨-, -, -, -, hleave, -⟩ := statusTransitions e s t ht
    exact (hleave hs hne).1

/-- Outside the boot window a ROM is refused, before the first reset because every event is. -/
theorem loadRom_refused_of_not_boot {s : State} (bytes : List Byte) (h : s.phase ≠ .boot) :
    (∃ r, applyEvent (.loadRom bytes) s = .refused r) ∧
    (s.phase = .executing → applyEvent (.loadRom bytes) s = .refused .loadRomOutsideBootWindow) := by
  have hafter (hreset : s.phase ≠ .unreset) : applyEvent (.loadRom bytes) s = .refused .loadRomOutsideBootWindow :=
    (applyEvent_loadRom bytes hreset).trans (State.loadRom_outsideBoot bytes h)
  refine ⟨?_, fun hexec => hafter (by simp [hexec])⟩
  by_cases hunreset : s.phase = .unreset
  · exact ⟨_, eventsBeforeTheFirstResetAreRefused (.loadRom bytes) s hunreset nofun⟩
  · exact ⟨_, hafter hunreset⟩

/-- Settles O43: in the window the ROM is a row of bytes written within memory, or nothing; the phase says the rest. -/
theorem loadRomCopiesOrRefuses : Obligations.LoadRomCopiesOrRefuses := by
  refine ⟨fun bytes s hboot hmem hlen => ?_, fun bytes s hboot hlen => ?_, fun bytes s => loadRom_refused_of_not_boot bytes,
    fun s t h => ?_, fun s t hs h => (cycleEnd_of_cycle h).phase_eq_executing hs⟩
  · have hfits : Config.progBase + bytes.length ≤ Config.memSize := Nat.add_le_add_left hlen 0x200
    exact ⟨_, (applyEvent_loadRom bytes (by simp [hboot])).trans (State.loadRom_fits hboot hlen),
      fun j hj => Memory.read_writeBytes_inside bytes hmem hfits hj, s.onlyMemChanges_rom _ bytes, rfl⟩
  · exact ⟨(applyEvent_loadRom bytes (by simp [hboot])).trans (State.loadRom_tooLarge hboot hlen), if_pos hlen⟩
  · cases h
    exact s.initialise_phase

end Sys2Proof.Machine
end
